-- ==== Sys2Proof/Word.lean ====
section
/-! DEFINITION. The word types of the VMDE core (00_scope R7, R9). -/

namespace Sys2Proof

/-- One byte: the addressable unit of every space (20_memory R50). -/
abbrev Byte := BitVec 8

/-- A 17-bit offset into the video memory (10_state R20). -/
abbrev Offset := BitVec 17

/-- A 12-bit palette cell, red in bits 11:8, green in 7:4, blue in 3:0 (30_encoding R101). -/
abbrev Cell12 := BitVec 12

/-- A 32-bit output pixel: red in bits 31:24, green in 23:16, blue in 15:8, alpha in 7:0 (30_encoding R102). -/
abbrev Colour := BitVec 32

end Sys2Proof
end

