-- ==== Sys2Proof/Config.lean ====
section
/-! DEFINITION. What an implementation fixes: the fixed parameters of 00_scope R7, the open parameter of R8,
and the one free value. The two opaque constants have no body: a statement about them holds for every value. -/

namespace Sys2Proof.Config

/-- `VRAM_SIZE` (00_scope R7): bytes of video memory. -/
abbrev vramSize : Nat := 0x20000

/-- `N_LAYERS` (R7). -/
abbrev nLayers : Nat := 2

/-- `LAYER_BLOCK` (R7): bytes of one layer register block. -/
abbrev layerBlock : Nat := 7

/-- `N_SPRITES` (R7). -/
abbrev nSprites : Nat := 128

/-- `SPRITE_BLOCK` (R7): bytes of one sprite register block. -/
abbrev spriteBlock : Nat := 8

/-- `PAL_CELLS` (R7). -/
abbrev palCells : Nat := 256

/-- `MAP_CELL_BYTES` (R7). -/
abbrev mapCellBytes : Nat := 2

/-- The largest pixel count R81 and R140 give `UNPK`: 2^24. -/
abbrev maxUnpackCount : Nat := 0x1000000

/-- The largest view width and height of `RREGION` (47_region_preview R272). -/
abbrev maxViewSide : Nat := 4096

/-- FREE VALUE (assumption log 8; safe): one less than `BITMAP_HEIGHT`. -/
opaque bitmapHeightPred : Nat

/-- `BITMAP_HEIGHT` (00_scope R8): any natural number that is at least 1, the same for both bitmap widths. -/
def bitmapHeight : Nat := bitmapHeightPred + 1

/-- FREE VALUE (assumption log 9, DESIGN CHOICE; safe): the bytes `UNPK depth, len, src` returns when `len` is
above 2^24, a count the 25-bit port can carry and R140 states no result for. -/
opaque unpkBeyondRange : BitVec 2 → BitVec 25 → List Byte → List Byte

end Sys2Proof.Config
end

