-- ==== Sys2Proof/Syntax.lean ====
section
/-! DEFINITION. The command the host puts on the command port (30_encoding R80, R81) and the one inductive of the
40 operations (R82). A constructor carries the operand ports its row of R82 names, each at the port's own width, so
that "the ignored upper bits" of R81 are operands here and are ignored by the meanings. -/

namespace Sys2Proof

/-- A command: the opcode and every operand port of R81. "Every command has the same length" (R80); a row of R82
uses some of the ports and ignores the rest (93 U12). -/
structure Command where
  /-- The 8-bit opcode: unit in bits 7:4, function in bits 3:0 (R80). -/
  op : BitVec 8
  /-- Layer id, sprite id, palette index or source kind. -/
  id : BitVec 8
  /-- Register byte offset. -/
  off : BitVec 3
  /-- Video-memory offset. -/
  addr : Offset
  /-- Byte count of `RDR`, pixel count of `UNPK`. -/
  len : BitVec 25
  /-- Byte, field value, cell or colour. -/
  val : BitVec 32
  /-- Depth code. -/
  depth : BitVec 2
  /-- Palette selector. -/
  sel : BitVec 4
  /-- View width in pixels. -/
  w : BitVec 13
  /-- View height in pixels. -/
  h : BitVec 13
  /-- The source bytes of `UNPK`. -/
  src : List Byte
  deriving DecidableEq, Repr

/-- The 40 operations, one constructor per row of R82. -/
inductive Instr where
  /-- `RDB` (R120), opcode 0x00. -/
  | rdb (addr : Offset)
  /-- `RDR` (R121), opcode 0x01. -/
  | rdr (addr : Offset) (len : BitVec 25)
  /-- `WRB` (R122), opcode 0x02. -/
  | wrb (addr : Offset) (val : BitVec 32)
  /-- `LRGR` (R123), opcode 0x03. -/
  | lrgr (id : BitVec 8) (off : BitVec 3)
  /-- `LRGW` (R124), opcode 0x04. -/
  | lrgw (id : BitVec 8) (off : BitVec 3) (val : BitVec 32)
  /-- `SRGR` (R125), opcode 0x05. -/
  | srgr (id : BitVec 8) (off : BitVec 3)
  /-- `SRGW` (R126), opcode 0x06. -/
  | srgw (id : BitVec 8) (off : BitVec 3) (val : BitVec 32)
  /-- `UNPK` (R140), opcode 0x10. -/
  | unpk (depth : BitVec 2) (len : BitVec 25) (src : List Byte)
  /-- `LDEC` (R150), opcode 0x20. -/
  | ldec (id : BitVec 8)
  /-- `LENC.DEPTH` (R152), opcode 0x21. -/
  | lencDepth (id : BitVec 8) (val : BitVec 32)
  /-- `LENC.BITMAP` (R153), opcode 0x22. -/
  | lencBitmap (id : BitVec 8) (val : BitVec 32)
  /-- `LENC.T256C` (R154), opcode 0x23. -/
  | lencT256c (id : BitVec 8) (val : BitVec 32)
  /-- `LENC.MAPW` (R155), opcode 0x24. -/
  | lencMapw (id : BitVec 8) (val : BitVec 32)
  /-- `LENC.MAPH` (R156), opcode 0x25. -/
  | lencMaph (id : BitVec 8) (val : BitVec 32)
  /-- `LENC.MAPBASE` (R157), opcode 0x26. -/
  | lencMapbase (id : BitVec 8) (val : BitVec 32)
  /-- `LENC.TILEBASE` (R158), opcode 0x27. -/
  | lencTilebase (id : BitVec 8) (val : BitVec 32)
  /-- `LENC.TILEW` (R159), opcode 0x28. -/
  | lencTilew (id : BitVec 8) (val : BitVec 32)
  /-- `LENC.TILEH` (R160), opcode 0x29. -/
  | lencTileh (id : BitVec 8) (val : BitVec 32)
  /-- `LENC.HSCROLL` (R161), opcode 0x2A. -/
  | lencHscroll (id : BitVec 8) (val : BitVec 32)
  /-- `LENC.VSCROLL` (R162), opcode 0x2B. -/
  | lencVscroll (id : BitVec 8) (val : BitVec 32)
  /-- `SDEC` (R180), opcode 0x30. -/
  | sdec (id : BitVec 8)
  /-- `SENC.ADDR` (R182), opcode 0x31. -/
  | sencAddr (id : BitVec 8) (val : BitVec 32)
  /-- `SENC.MODE` (R183), opcode 0x32. -/
  | sencMode (id : BitVec 8) (val : BitVec 32)
  /-- `SENC.X` (R184), opcode 0x33. -/
  | sencX (id : BitVec 8) (val : BitVec 32)
  /-- `SENC.Y` (R185), opcode 0x34. -/
  | sencY (id : BitVec 8) (val : BitVec 32)
  /-- `SENC.HFLIP` (R186), opcode 0x35. -/
  | sencHflip (id : BitVec 8) (val : BitVec 32)
  /-- `SENC.VFLIP` (R187), opcode 0x36. -/
  | sencVflip (id : BitVec 8) (val : BitVec 32)
  /-- `SENC.ZDEPTH` (R188), opcode 0x37. -/
  | sencZdepth (id : BitVec 8) (val : BitVec 32)
  /-- `SENC.COLL` (R189), opcode 0x38. -/
  | sencColl (id : BitVec 8) (val : BitVec 32)
  /-- `SENC.PALOFF` (R190), opcode 0x39. -/
  | sencPaloff (id : BitVec 8) (val : BitVec 32)
  /-- `SENC.WIDTH` (R191), opcode 0x3A. -/
  | sencWidth (id : BitVec 8) (val : BitVec 32)
  /-- `SENC.HEIGHT` (R192), opcode 0x3B. -/
  | sencHeight (id : BitVec 8) (val : BitVec 32)
  /-- `RLAYER` (R210), opcode 0x40. -/
  | rlayer (id : BitVec 8)
  /-- `RREGION` (R270), opcode 0x41. -/
  | rregion (id : BitVec 8) (addr : Offset) (w : BitVec 13) (h : BitVec 13) (depth : BitVec 2) (sel : BitVec 4)
  /-- `RSPRITE` (R240), opcode 0x50. -/
  | rsprite (id : BitVec 8)
  /-- `PEXP` (R250), opcode 0x60. -/
  | pexp (val : BitVec 32)
  /-- `PQNT` (R251), opcode 0x61. -/
  | pqnt (val : BitVec 32)
  /-- `PGET` (R252), opcode 0x62. -/
  | pget
  /-- `PSETC` (R253), opcode 0x63. -/
  | psetc (id : BitVec 8) (val : BitVec 32)
  /-- `PSETQ` (R254), opcode 0x64. -/
  | psetq (id : BitVec 8) (val : BitVec 32)
  deriving DecidableEq, Repr

end Sys2Proof
end

