-- ==== Sys2Proof/WellFormed.lean ====
section
/-! DEFINITION. The operands the rules admit. Port widths are in the types (30_encoding R81: "a value that does not
fit cannot be expressed"), so what is left to check is the four operands whose port is wider than the legal range. -/

namespace Sys2Proof

/-- An operation whose operands are inside the ranges its rule admits (00_scope R11): `RDR` at most 0x20000 bytes
(R52), a layer offset other than 7 (R54), `UNPK` at most 2^24 pixels (R140), `RREGION` from video memory (R271). -/
def Instr.wf : Instr → Bool
  | .rdr _ len => decide (len.toNat ≤ Config.vramSize)
  | .lrgr _ off => off != 7#3
  | .lrgw _ off _ => off != 7#3
  | .unpk _ len _ => decide (len.toNat ≤ Config.maxUnpackCount)
  | .rregion id _ _ _ _ _ => id.extractLsb' 0 2 == 0#2
  | .rdb _ | .wrb _ _ | .srgr _ _ | .srgw _ _ _ => true
  | .ldec _ | .lencDepth _ _ | .lencBitmap _ _ | .lencT256c _ _ | .lencMapw _ _ | .lencMaph _ _ => true
  | .lencMapbase _ _ | .lencTilebase _ _ | .lencTilew _ _ | .lencTileh _ _ | .lencHscroll _ _ | .lencVscroll _ _ => true
  | .sdec _ | .sencAddr _ _ | .sencMode _ _ | .sencX _ _ | .sencY _ _ | .sencHflip _ _ | .sencVflip _ _ => true
  | .sencZdepth _ _ | .sencColl _ _ | .sencPaloff _ _ | .sencWidth _ _ | .sencHeight _ _ => true
  | .rlayer _ | .rsprite _ | .pexp _ | .pqnt _ | .pget | .psetc _ _ | .psetq _ _ => true

end Sys2Proof
end

