-- ==== Sys2Proof/Decode.lean ====
section
/-! DEFINITION. The decoder and the encoder of commands (30_encoding R80 to R82, R105), and the bundle of wires the
command port is when it is read as one number (assumption log 3). -/

namespace Sys2Proof

/-- Why a command spells no operation. -/
inductive DecodeError where
  /-- The opcode is one of the 216 values R105 reserves. -/
  | reservedOpcode (op : BitVec 8)
  deriving DecidableEq, Repr

/-- Decoding: the whole opcode byte selects the row of R82, the row selects the ports; every other opcode is
reserved (R105). Total on every command; ports a row does not name are ignored. -/
def decode (c : Command) : Except DecodeError Instr :=
  match c.op with
  | 0x00#8 => .ok (.rdb c.addr)
  | 0x01#8 => .ok (.rdr c.addr c.len)
  | 0x02#8 => .ok (.wrb c.addr c.val)
  | 0x03#8 => .ok (.lrgr c.id c.off)
  | 0x04#8 => .ok (.lrgw c.id c.off c.val)
  | 0x05#8 => .ok (.srgr c.id c.off)
  | 0x06#8 => .ok (.srgw c.id c.off c.val)
  | 0x10#8 => .ok (.unpk c.depth c.len c.src)
  | 0x20#8 => .ok (.ldec c.id)
  | 0x21#8 => .ok (.lencDepth c.id c.val)
  | 0x22#8 => .ok (.lencBitmap c.id c.val)
  | 0x23#8 => .ok (.lencT256c c.id c.val)
  | 0x24#8 => .ok (.lencMapw c.id c.val)
  | 0x25#8 => .ok (.lencMaph c.id c.val)
  | 0x26#8 => .ok (.lencMapbase c.id c.val)
  | 0x27#8 => .ok (.lencTilebase c.id c.val)
  | 0x28#8 => .ok (.lencTilew c.id c.val)
  | 0x29#8 => .ok (.lencTileh c.id c.val)
  | 0x2A#8 => .ok (.lencHscroll c.id c.val)
  | 0x2B#8 => .ok (.lencVscroll c.id c.val)
  | 0x30#8 => .ok (.sdec c.id)
  | 0x31#8 => .ok (.sencAddr c.id c.val)
  | 0x32#8 => .ok (.sencMode c.id c.val)
  | 0x33#8 => .ok (.sencX c.id c.val)
  | 0x34#8 => .ok (.sencY c.id c.val)
  | 0x35#8 => .ok (.sencHflip c.id c.val)
  | 0x36#8 => .ok (.sencVflip c.id c.val)
  | 0x37#8 => .ok (.sencZdepth c.id c.val)
  | 0x38#8 => .ok (.sencColl c.id c.val)
  | 0x39#8 => .ok (.sencPaloff c.id c.val)
  | 0x3A#8 => .ok (.sencWidth c.id c.val)
  | 0x3B#8 => .ok (.sencHeight c.id c.val)
  | 0x40#8 => .ok (.rlayer c.id)
  | 0x41#8 => .ok (.rregion c.id c.addr c.w c.h c.depth c.sel)
  | 0x50#8 => .ok (.rsprite c.id)
  | 0x60#8 => .ok (.pexp c.val)
  | 0x61#8 => .ok (.pqnt c.val)
  | 0x62#8 => .ok .pget
  | 0x63#8 => .ok (.psetc c.id c.val)
  | 0x64#8 => .ok (.psetq c.id c.val)
  | op => .error (.reservedOpcode op)

/-- The command with a given opcode and every port at zero. -/
def Command.blank (op : BitVec 8) : Command :=
  { op := op, id := 0, off := 0, addr := 0, len := 0, val := 0, depth := 0, sel := 0, w := 0, h := 0, src := [] }

/-- The command that issues an operation: its opcode of R82, the ports its row names, and zero on the others. -/
def encode (i : Instr) : Command :=
  match i with
  | .rdb addr => { Command.blank 0x00#8 with addr := addr }
  | .rdr addr len => { Command.blank 0x01#8 with addr := addr, len := len }
  | .wrb addr val => { Command.blank 0x02#8 with addr := addr, val := val }
  | .lrgr id off => { Command.blank 0x03#8 with id := id, off := off }
  | .lrgw id off val => { Command.blank 0x04#8 with id := id, off := off, val := val }
  | .srgr id off => { Command.blank 0x05#8 with id := id, off := off }
  | .srgw id off val => { Command.blank 0x06#8 with id := id, off := off, val := val }
  | .unpk depth len src => { Command.blank 0x10#8 with depth := depth, len := len, src := src }
  | .ldec id => { Command.blank 0x20#8 with id := id }
  | .lencDepth id val => { Command.blank 0x21#8 with id := id, val := val }
  | .lencBitmap id val => { Command.blank 0x22#8 with id := id, val := val }
  | .lencT256c id val => { Command.blank 0x23#8 with id := id, val := val }
  | .lencMapw id val => { Command.blank 0x24#8 with id := id, val := val }
  | .lencMaph id val => { Command.blank 0x25#8 with id := id, val := val }
  | .lencMapbase id val => { Command.blank 0x26#8 with id := id, val := val }
  | .lencTilebase id val => { Command.blank 0x27#8 with id := id, val := val }
  | .lencTilew id val => { Command.blank 0x28#8 with id := id, val := val }
  | .lencTileh id val => { Command.blank 0x29#8 with id := id, val := val }
  | .lencHscroll id val => { Command.blank 0x2A#8 with id := id, val := val }
  | .lencVscroll id val => { Command.blank 0x2B#8 with id := id, val := val }
  | .sdec id => { Command.blank 0x30#8 with id := id }
  | .sencAddr id val => { Command.blank 0x31#8 with id := id, val := val }
  | .sencMode id val => { Command.blank 0x32#8 with id := id, val := val }
  | .sencX id val => { Command.blank 0x33#8 with id := id, val := val }
  | .sencY id val => { Command.blank 0x34#8 with id := id, val := val }
  | .sencHflip id val => { Command.blank 0x35#8 with id := id, val := val }
  | .sencVflip id val => { Command.blank 0x36#8 with id := id, val := val }
  | .sencZdepth id val => { Command.blank 0x37#8 with id := id, val := val }
  | .sencColl id val => { Command.blank 0x38#8 with id := id, val := val }
  | .sencPaloff id val => { Command.blank 0x39#8 with id := id, val := val }
  | .sencWidth id val => { Command.blank 0x3A#8 with id := id, val := val }
  | .sencHeight id val => { Command.blank 0x3B#8 with id := id, val := val }
  | .rlayer id => { Command.blank 0x40#8 with id := id }
  | .rregion id addr w h depth sel => { Command.blank 0x41#8 with id := id, addr := addr, w := w, h := h, depth := depth, sel := sel }
  | .rsprite id => { Command.blank 0x50#8 with id := id }
  | .pexp val => { Command.blank 0x60#8 with val := val }
  | .pqnt val => { Command.blank 0x61#8 with val := val }
  | .pget => Command.blank 0x62#8
  | .psetc id val => { Command.blank 0x63#8 with id := id, val := val }
  | .psetq id val => { Command.blank 0x64#8 with id := id, val := val }

/-- The opcode of an operation: its row of the operation map (R82). -/
def Instr.opcode (i : Instr) : BitVec 8 := (encode i).op

/-- How many wires the ports of R81 are, the byte list `src` apart: 8 + 8 + 3 + 17 + 25 + 32 + 2 + 4 + 13 + 13. -/
abbrev bundleBits : Nat := 125

/-- DESIGN CHOICE (log 3): the command port as one number, the opcode in bits 7:0 as opcode_table.json has it and the
ports above it in the order of R81: `id` 15:8, `off` 18:16, `addr` 35:19, `len` 60:36, `val` 92:61, `depth` 94:93,
`sel` 98:95, `w` 111:99, `h` 124:112. The byte list `src` travels beside it. -/
def Command.toBundle (c : Command) : BitVec bundleBits :=
  c.h ++ c.w ++ c.sel ++ c.depth ++ c.val ++ c.len ++ c.addr ++ c.off ++ c.id ++ c.op

/-- The command whose ports carry the bits of a bundle (log 3). -/
def Command.ofBundle (b : BitVec bundleBits) (src : List Byte) : Command :=
  { op := b.extractLsb' 0 8, id := b.extractLsb' 8 8, off := b.extractLsb' 16 3, addr := b.extractLsb' 19 17,
    len := b.extractLsb' 36 25, val := b.extractLsb' 61 32, depth := b.extractLsb' 93 2, sel := b.extractLsb' 95 4,
    w := b.extractLsb' 99 13, h := b.extractLsb' 112 13, src := src }

/-- The operation a bundle and its byte list spell. -/
def decodeBundle (b : BitVec bundleBits) (src : List Byte) : Except DecodeError Instr :=
  decode (Command.ofBundle b src)

/-- The bundle of an operation. -/
def encodeBundle (i : Instr) : BitVec bundleBits := (encode i).toBundle

/-- The byte list that travels with an operation: empty but for `UNPK`. -/
def encodeSrc (i : Instr) : List Byte := (encode i).src

/-- The command whose low `nbits` wires are the bits of `w` and whose other wires are 0, with no source bytes. -/
def tableCommand (nbits w : Nat) : Command :=
  Command.ofBundle (BitVec.ofNat bundleBits (w % 2 ^ nbits)) []

/-- The operation the decoder reads from a row's bits as opcode_table.json numbers them. -/
def decodeTableWord (nbits w : Nat) : Option Instr :=
  (decode (tableCommand nbits w)).toOption

end Sys2Proof
end

