-- ==== Sys2Proof/Machine/State.lean ====
section
/-! DEFINITION. The state of the machine as plain data: the four memories the block reads and writes (10_state R20 to
R24), the result port, and the host's schedule on the command port (R40, R41); the records the codec produces (R31 to
R37); the reasons a step can stop; and the state after reset (R42, R300, R301). -/

namespace Sys2Proof.Machine

/-- Why the machine faults: never. "The set of synchronous exceptions is empty" (60_exceptions R280), so no
constructor; safe (log 16). -/
inductive Fault where
  deriving DecidableEq, Repr

/-- Why a step has no meaning: the `refuse` cases of 60_exceptions R287. -/
inductive Refusal where
  /-- An operation without a meaning in this model; raised by no operation here. Safe. -/
  | notModelled (mnemonic : String)
  /-- Raised by the step for a command whose opcode R105 reserves ("A model treats them as `refuse`"). Safe. -/
  | reservedOpcode (op : BitVec 8)
  /-- Raised by `RDR` for a length above 0x20000: R121 `refuse(range_too_long)`. Safe. -/
  | rangeTooLong
  /-- Raised by `LRGR` and `LRGW` for offset 7: R123, R124 `refuse(no_such_register_byte)`. Safe. -/
  | noSuchRegisterByte
  /-- Raised by `RREGION` for a source other than video memory: R270, R271 `refuse(region_source_not_modelled)`. Safe. -/
  | regionSourceUnknown
  deriving DecidableEq, Repr

/-- The video memory: (offset, byte) pairs, offsets strictly rising and below 0x20000, no pair with the byte an
unlisted offset reads as (`Memory.wf`). -/
abbrev Memory := List Host.Cell

/-- The 7 bytes of a layer register block (10_state R21). -/
abbrev LayerBlock := Vector Byte 7

/-- The 8 bytes of a sprite register block (10_state R23). -/
abbrev SpriteBlock := Vector Byte 8

/-- The decoded view of a layer block (10_state R31). Numbers are unsigned naturals (00_scope R9). -/
structure LayerProperties where
  colorDepthCode : Nat
  bitmapMode : Bool
  textMode256Color : Bool
  mapBase : Nat
  mapWidthLog2 : Nat
  mapHeightLog2 : Nat
  tileBase : Nat
  tileWidthLog2 : Nat
  tileHeightLog2 : Nat
  hScroll : Nat
  vScroll : Nat
  deriving DecidableEq, Repr

/-- The derived layer values `LDEC` returns beside the fields (10_state R32). -/
structure LayerDerived where
  bitsPerPixel : Nat
  mapWidth : Nat
  mapHeight : Nat
  tileWidthPixels : Nat
  tileHeightPixels : Nat
  tileBytes : Nat
  textMode : Bool
  bitmapWidthPixels : Nat
  paletteSelector : Nat
  deriving DecidableEq, Repr

/-- The decoded view of a sprite block (10_state R34). -/
structure SpriteProperties where
  address : Nat
  colorMode : Bool
  x : Nat
  y : Nat
  hFlip : Bool
  vFlip : Bool
  zDepth : Nat
  collisionMask : Nat
  paletteOffset : Nat
  widthLog2 : Nat
  heightLog2 : Nat
  deriving DecidableEq, Repr

/-- The derived sprite values `SDEC` returns beside the fields (10_state R35). -/
structure SpriteDerived where
  bitsPerPixel : Nat
  widthPixels : Nat
  heightPixels : Nat
  pixelCount : Nat
  dataBytes : Nat
  deriving DecidableEq, Repr

/-- A width by height sequence of colours; the pixel at column X, row Y is `data[Y × width + X]` (10_state R37). -/
structure PixelBuffer where
  width : Nat
  height : Nat
  data : List Colour
  deriving DecidableEq, Repr

/-- What the result port carries (10_state R38). -/
inductive Result where
  | nothing
  | byte (b : Byte)
  | bytes (bs : List Byte)
  | layer (p : LayerProperties) (d : LayerDerived)
  | sprite (p : SpriteProperties) (d : SpriteDerived)
  | colour (c : Colour)
  | cell (c : Cell12)
  | colours (cs : Vector Colour 256)
  | pixels (b : PixelBuffer)
  deriving DecidableEq, Repr

/-- A host write between two operations (10_state R41): one byte or cell of one space, or all four at once. -/
inductive HostWrite where
  | vram (a : Offset) (b : Byte)
  | lreg (l : Fin 2) (o : Fin 7) (b : Byte)
  | sreg (k : Fin 128) (o : Fin 8) (b : Byte)
  | pal (i : Fin 256) (c : Cell12)
  /-- "replaces the four state components by arbitrary values": the listed bytes are written, in order, over a
  memory of bytes that read as unwritten. -/
  | replace (vram : List (Offset × Byte)) (lreg : Vector LayerBlock 2) (sreg : Vector SpriteBlock 128)
      (pal : Vector Cell12 256)
  deriving DecidableEq, Repr

/-- What the host does next (10_state R41): issue a command, or write. -/
inductive HostAction where
  | command (c : Command)
  | write (w : HostWrite)
  deriving DecidableEq, Repr

/-- The whole state. -/
structure State where
  /-- `VRAM` (10_state R20). -/
  vram : Memory
  /-- `LREG` (R21). -/
  lreg : Vector LayerBlock 2
  /-- `SREG` (R23). -/
  sreg : Vector SpriteBlock 128
  /-- `PAL` (R24): the upper 4 bits of a cell's machine word "always read 0" and are not held. -/
  pal : Vector Cell12 256
  /-- The command port and the host's moves, oldest first (R40, R41; log 1). -/
  schedule : List HostAction
  /-- The result port: what the last step returned (R38, R40; log 2). -/
  result : Result
  deriving DecidableEq, Repr

/-- The machine right after reset: the engine is idle and holds no operand and no result (70_reset R300). The four
memories are unspecified (R42, R301): each reads zero here, DESIGN CHOICE, unsafe (logs 4 to 7). -/
def State.reset : State :=
  { vram := []
    lreg := Vector.replicate 2 (Vector.replicate 7 0#8)
    sreg := Vector.replicate 128 (Vector.replicate 8 0#8)
    pal := Vector.replicate 256 0#12
    schedule := []
    result := .nothing }

end Sys2Proof.Machine
end

