-- ==== Sys2Proof/Machine/Flags.lean ====
section
/-! DEFINITION. The block has no status flags, condition codes or error codes, and "No operation sets a flag as a side
effect" (10_state R30), so there is no flag computation to write. What stands here is the only thing an operation
tests before it runs: the operand conditions of the `refuse` table (60_exceptions R287). -/

namespace Sys2Proof.Machine

/-- `RDR` with `len > 0x20000` (40_accessor R121). -/
def rangeTooLong (len : BitVec 25) : Bool := decide (Config.vramSize < len.toNat)

/-- `LRGR` or `LRGW` with `off = 7`: "a layer block has 7 bytes" (40_accessor R123, R124). -/
def noLayerByte (off : BitVec 3) : Bool := off == 7#3

/-- `RREGION` with `id[1:0] != 0` (47_region_preview R270, R271). -/
def regionSourceUnknown (id : BitVec 8) : Bool := id.extractLsb' 0 2 != 0#2

end Sys2Proof.Machine
end

