-- ==== Sys2Proof/Machine/Ops.lean ====
section
/-! DEFINITION. The named operations over the four memories and the ports: the only readers and writers of State.
There is no operation for taking an exception: the block has none (60_exceptions R280, R283, R284). -/

namespace Sys2Proof.Machine

/-- What an offset that is not listed reads as: zero (DESIGN CHOICE, unsafe; log 4). -/
def Memory.unwritten : Byte := 0#8

/-- The listed byte at an offset, or the unwritten one. -/
def Memory.read (m : Memory) (a : Nat) : Byte :=
  match m with
  | [] => Memory.unwritten
  | (k, b) :: rest => if k = a then b else Memory.read rest a

/-- Puts a byte at an offset, keeping the canonical form: offsets rise, and a byte equal to the unwritten one is not
listed. -/
def Memory.write (m : Memory) (a : Nat) (v : Byte) : Memory :=
  match m with
  | [] => if v = Memory.unwritten then [] else [(a, v)]
  | (k, b) :: rest =>
    if a < k then (if v = Memory.unwritten then (k, b) :: rest else (a, v) :: (k, b) :: rest)
    else if a = k then (if v = Memory.unwritten then rest else (a, v) :: rest)
    else (k, b) :: Memory.write rest a v

/-- The memory that a list of writes, in order, leaves over the unwritten one. -/
def Memory.ofWrites (ws : List (Offset × Byte)) : Memory :=
  ws.foldl (fun m w => Memory.write m w.1.toNat w.2) []

/-- The canonical form: offsets strictly rise, lie below 0x20000, and no listed byte is the unwritten one. -/
def Memory.wf (m : Memory) : Bool :=
  match m with
  | [] => true
  | (a, b) :: rest =>
    decide (a < Config.vramSize) && decide (b ≠ Memory.unwritten) &&
      (match rest with | [] => true | (a', _) :: _ => decide (a < a')) && Memory.wf rest

/-- The byte at a natural-number address, reduced "`mod 0x20000` at the point of access" (20_memory R50, R55). -/
def vramByte (m : Memory) (a : Nat) : Byte := Memory.read m (a % Config.vramSize)

/-- `MemRead(addr, n)`: element `i` is `VRAM[(addr + i) mod 0x20000]` (20_memory R51). -/
def memRead (m : Memory) (addr n : Nat) : List Byte :=
  (List.range n).map fun i => vramByte m (addr + i)

/-- `expand`: each 4-bit channel `v` becomes `v | v << 4`, alpha is 0xFF (46_palette R250). -/
def expand (c : Cell12) : Colour :=
  let r4 := c.extractLsb' 8 4
  let g4 := c.extractLsb' 4 4
  let b4 := c.extractLsb' 0 4
  (r4 ++ r4) ++ (g4 ++ g4) ++ (b4 ++ b4) ++ 0xFF#8

/-- `quantize`: the high 4 bits of red, green and blue; alpha is dropped (46_palette R251). -/
def quantize (p : Colour) : Cell12 :=
  p.extractLsb' 28 4 ++ p.extractLsb' 20 4 ++ p.extractLsb' 12 4

/-- `PALX`: a function of the palette, never a second array (10_state R25, 46_palette R256). -/
def palx (pal : Vector Cell12 256) : Vector Colour 256 := pal.map expand

/-- The register block of a layer, `LREG[l]` (10_state R21). -/
def State.layer (s : State) (l : Fin 2) : LayerBlock := s.lreg[l]

/-- The register block of a sprite, `SREG[k]` (10_state R23). -/
def State.sprite (s : State) (k : Fin 128) : SpriteBlock := s.sreg[k]

/-- A palette cell, `PAL[i]` (10_state R24). -/
def State.palCell (s : State) (i : Fin 256) : Cell12 := s.pal[i]

/-- `VRAM[addr] <- b` (20_memory R53). -/
def State.setVramByte (s : State) (a : Offset) (b : Byte) : State :=
  { s with vram := Memory.write s.vram a.toNat b }

/-- Replaces the register block of one layer (10_state R21). -/
def State.setLayer (s : State) (l : Fin 2) (B : LayerBlock) : State :=
  { s with lreg := s.lreg.set l.val B }

/-- Replaces the register block of one sprite (10_state R23). -/
def State.setSprite (s : State) (k : Fin 128) (B : SpriteBlock) : State :=
  { s with sreg := s.sreg.set k.val B }

/-- `PAL[i] <- c`; `PALX[i]` follows by definition (46_palette R253, R256). -/
def State.setPalCell (s : State) (i : Fin 256) (c : Cell12) : State :=
  { s with pal := s.pal.set i.val c }

/-- Puts a value on the result port (10_state R40 (b)). -/
def State.setResult (s : State) (r : Result) : State := { s with result := r }

/-- Takes what the host does next off the schedule, leaving the rest. -/
def State.setSchedule (s : State) (acts : List HostAction) : State := { s with schedule := acts }

/-- An operation that ends: its state and the value it returns (10_state R38). -/
def complete (s : State) (r : Result) : Host.Outcome State Fault Refusal := .next (s.setResult r)

/-- The engine with no command to run: "Between operations the engine is idle and holds nothing" (60_exceptions R290). -/
def idle (s : State) : State := s.setResult .nothing

/-- A host write (10_state R41). It is no operation and returns nothing. -/
def hostWrite (w : HostWrite) (s : State) : State :=
  let t := match w with
    | .vram a b => s.setVramByte a b
    | .lreg l o b => s.setLayer l ((s.layer l).set o.val b)
    | .sreg k o b => s.setSprite k ((s.sprite k).set o.val b)
    | .pal i c => s.setPalCell i c
    | .replace vram lreg sreg pal => { s with vram := Memory.ofWrites vram, lreg := lreg, sreg := sreg, pal := pal }
  t.setResult .nothing

end Sys2Proof.Machine
end

