-- ==== Sys2Proof/Machine/Operands.lean ====
section
/-! DEFINITION. Bit slices (00_scope R9), what each operand port carries for an operation (30_encoding R81), depth
codes (R84), and the fields of the two register blocks: fragments, the field tables R90 and R96, and the common
decode and encode steps (R83, R151, R181). -/

namespace Sys2Proof.Machine

/-! ## Slices and clamps -/

/-- `v[hi:lo] = (v >> lo) mod 2^(hi-lo+1)` (00_scope R9). -/
def bits {n : Nat} (v : BitVec n) (hi lo : Nat) : Nat := (v.toNat >>> lo) % 2 ^ (hi - lo + 1)

/-- `v[i]` as a flag (00_scope R9). -/
def bit {n : Nat} (v : BitVec n) (i : Nat) : Bool := bits v i i == 1

/-- `clamp(v, lo, hi)` (00_scope R9). -/
def clamp (v lo hi : Nat) : Nat := if v < lo then lo else if hi < v then hi else v

/-! ## Ports -/

/-- The layer id in `id[0]`; `id[7:1]` is ignored (R81). -/
def layerOf (id : BitVec 8) : Fin 2 := ⟨bits id 0 0, Nat.mod_lt _ (by decide)⟩

/-- The sprite id in `id[6:0]`; `id[7]` is ignored (R81). -/
def spriteOf (id : BitVec 8) : Fin 128 := ⟨bits id 6 0, Nat.mod_lt _ (by decide)⟩

/-- The palette index in `id[7:0]` (R81). -/
def palIndexOf (id : BitVec 8) : Fin 256 := id.toFin

/-- The byte value in `val[7:0]` (R81). -/
def byteOf (val : BitVec 32) : Byte := val.extractLsb' 0 8

/-- The new field value in `val[16:0]`; `val[31:17]` is ignored (R81). -/
def fieldValueOf (val : BitVec 32) : Nat := bits val 16 0

/-- The 12-bit cell in `val[11:0]`; `val[31:12]` is ignored (R81). -/
def cellOf (val : BitVec 32) : Cell12 := val.extractLsb' 0 12

/-- `bpp = 1 << depth` (R84). -/
def bppOf (depth : BitVec 2) : Nat := 1 <<< depth.toNat

/-! ## Fields -/

/-- The bits of a field held in one byte of an `n`-byte block (R83). -/
structure Fragment (n : Nat) where
  byte : Fin n
  mask : Byte
  shift : Nat
  deriving DecidableEq, Repr

/-- A field: one fragment, or a low one of width `lowWidth` and a high one; `p = (s + bias) × scale` relates the
stored value `s` to the property `p`, which ranges from `pmin` to `pmax` (R83). -/
structure BlockField (n : Nat) where
  low : Fragment n
  high : Option (Fragment n)
  lowWidth : Nat
  bias : Nat
  scale : Nat
  pmin : Nat
  pmax : Nat
  deriving DecidableEq, Repr

/-- A fragment's value: `(B[byte] & mask) >> shift` (R83). -/
def Fragment.value {n : Nat} (f : Fragment n) (B : Vector Byte n) : Nat := ((B[f.byte] &&& f.mask) >>> f.shift).toNat

/-- Rewrites a fragment's byte from its current value: `(B[byte] & ~mask) | ((x << shift) & mask)` (R83, R151). -/
def Fragment.put {n : Nat} (f : Fragment n) (x : Nat) (B : Vector Byte n) : Vector Byte n :=
  B.set f.byte.val ((B[f.byte] &&& ~~~f.mask) ||| (BitVec.ofNat 8 (x <<< f.shift) &&& f.mask))

/-- The stored value of a field in a block: the fragment's, or `low | (high << wl)` (R83). -/
def BlockField.stored {n : Nat} (f : BlockField n) (B : Vector Byte n) : Nat :=
  match f.high with
  | none => f.low.value B
  | some hi => f.low.value B ||| (hi.value B <<< f.lowWidth)

/-- Decode: `p = (s + bias) × scale` (R83). -/
def BlockField.decode {n : Nat} (f : BlockField n) (B : Vector Byte n) : Nat := (f.stored B + f.bias) * f.scale

/-- The property value an encode stores for a requested value: clamped, then aligned down by the scale (R151). -/
def BlockField.storedOf {n : Nat} (f : BlockField n) (v : Nat) : Nat := clamp v f.pmin f.pmax / f.scale - f.bias

/-- The common encode step (R151, R181): the low fragment's byte, then the high one's. -/
def BlockField.encode {n : Nat} (f : BlockField n) (v : Nat) (B : Vector Byte n) : Vector Byte n :=
  match f.high with
  | none => f.low.put (f.storedOf v) B
  | some hi => hi.put (f.storedOf v >>> f.lowWidth) (f.low.put (f.storedOf v % 2 ^ f.lowWidth) B)

/-! ## The layer field table (R90) -/

/-- Field 1, `colorDepthCode`. -/
def fieldDepth : BlockField 7 := ⟨⟨0, 0x03#8, 0⟩, none, 0, 0, 1, 0, 3⟩

/-- Field 2, `bitmapMode`. -/
def fieldBitmap : BlockField 7 := ⟨⟨0, 0x04#8, 2⟩, none, 0, 0, 1, 0, 1⟩

/-- Field 3, `textMode256Color`. -/
def fieldT256c : BlockField 7 := ⟨⟨0, 0x08#8, 3⟩, none, 0, 0, 1, 0, 1⟩

/-- Field 4, `mapWidthLog2`. -/
def fieldMapWidth : BlockField 7 := ⟨⟨0, 0x30#8, 4⟩, none, 0, 5, 1, 5, 8⟩

/-- Field 5, `mapHeightLog2`. -/
def fieldMapHeight : BlockField 7 := ⟨⟨0, 0xC0#8, 6⟩, none, 0, 5, 1, 5, 8⟩

/-- Field 6, `mapBase`. -/
def fieldMapBase : BlockField 7 := ⟨⟨1, 0xFF#8, 0⟩, none, 0, 0, 512, 0, 0x1FE00⟩

/-- Field 7, `tileBase`. -/
def fieldTileBase : BlockField 7 := ⟨⟨2, 0xFC#8, 2⟩, none, 0, 0, 2048, 0, 0x1F800⟩

/-- Field 8, `tileWidthLog2`. -/
def fieldTileWidth : BlockField 7 := ⟨⟨2, 0x01#8, 0⟩, none, 0, 3, 1, 3, 4⟩

/-- Field 9, `tileHeightLog2`. -/
def fieldTileHeight : BlockField 7 := ⟨⟨2, 0x02#8, 1⟩, none, 0, 3, 1, 3, 4⟩

/-- Field 10, `hScroll`. -/
def fieldHScroll : BlockField 7 := ⟨⟨3, 0xFF#8, 0⟩, some ⟨4, 0x0F#8, 0⟩, 8, 0, 1, 0, 4095⟩

/-- Field 11, `vScroll`. -/
def fieldVScroll : BlockField 7 := ⟨⟨5, 0xFF#8, 0⟩, some ⟨6, 0x0F#8, 0⟩, 8, 0, 1, 0, 4095⟩

/-! ## The sprite field table (R96) -/

/-- Field 1, `address`. -/
def fieldAddress : BlockField 8 := ⟨⟨0, 0xFF#8, 0⟩, some ⟨1, 0x0F#8, 0⟩, 8, 0, 32, 0, 0x1FFE0⟩

/-- Field 2, `colorMode`. -/
def fieldColorMode : BlockField 8 := ⟨⟨1, 0x80#8, 7⟩, none, 0, 0, 1, 0, 1⟩

/-- Field 3, `x`. -/
def fieldX : BlockField 8 := ⟨⟨2, 0xFF#8, 0⟩, some ⟨3, 0x03#8, 0⟩, 8, 0, 1, 0, 1023⟩

/-- Field 4, `y`. -/
def fieldY : BlockField 8 := ⟨⟨4, 0xFF#8, 0⟩, some ⟨5, 0x03#8, 0⟩, 8, 0, 1, 0, 1023⟩

/-- Field 5, `hFlip`. -/
def fieldHFlip : BlockField 8 := ⟨⟨6, 0x01#8, 0⟩, none, 0, 0, 1, 0, 1⟩

/-- Field 6, `vFlip`. -/
def fieldVFlip : BlockField 8 := ⟨⟨6, 0x02#8, 1⟩, none, 0, 0, 1, 0, 1⟩

/-- Field 7, `zDepth`. -/
def fieldZDepth : BlockField 8 := ⟨⟨6, 0x0C#8, 2⟩, none, 0, 0, 1, 0, 3⟩

/-- Field 8, `collisionMask`. -/
def fieldCollision : BlockField 8 := ⟨⟨6, 0xF0#8, 4⟩, none, 0, 0, 1, 0, 15⟩

/-- Field 9, `paletteOffset`. -/
def fieldPaletteOffset : BlockField 8 := ⟨⟨7, 0x0F#8, 0⟩, none, 0, 0, 16, 0, 240⟩

/-- Field 10, `widthLog2`. -/
def fieldWidth : BlockField 8 := ⟨⟨7, 0x30#8, 4⟩, none, 0, 3, 1, 3, 6⟩

/-- Field 11, `heightLog2`. -/
def fieldHeight : BlockField 8 := ⟨⟨7, 0xC0#8, 6⟩, none, 0, 3, 1, 3, 6⟩

end Sys2Proof.Machine
end

