-- ==== Sys2Proof/Machine/Accessor.lean ====
section
/-! DEFINITION. The AddressSpace Accessor (40_accessor): `RDB`, `RDR`, `WRB`, `LRGR`, `LRGW`, `SRGR`, `SRGW`. -/

namespace Sys2Proof.Machine

/-- Byte `off` of a layer block. `off` is below 7 wherever this is used (R123, R124); the remainder only makes it
an index. -/
def layerOffset (off : BitVec 3) : Fin 7 := ⟨off.toNat % 7, Nat.mod_lt _ (by decide)⟩

/-- `RDB` (R120): `result <- VRAM[addr]`. -/
def execRdb (addr : Offset) (s : State) : Host.Outcome State Fault Refusal :=
  complete s (.byte (vramByte s.vram addr.toNat))

/-- `RDR` (R121): `refuse(range_too_long)` above 0x20000, else `MemRead(addr, len)`. -/
def execRdr (addr : Offset) (len : BitVec 25) (s : State) : Host.Outcome State Fault Refusal :=
  if rangeTooLong len then .refused .rangeTooLong
  else complete s (.bytes (memRead s.vram addr.toNat len.toNat))

/-- `WRB` (R122): `VRAM[addr] <- val[7:0]`. -/
def execWrb (addr : Offset) (val : BitVec 32) (s : State) : Host.Outcome State Fault Refusal :=
  complete (s.setVramByte addr (byteOf val)) .nothing

/-- `LRGR` (R123): `refuse(no_such_register_byte)` for offset 7, else `LREG[id[0]][off]`. -/
def execLrgr (id : BitVec 8) (off : BitVec 3) (s : State) : Host.Outcome State Fault Refusal :=
  if noLayerByte off then .refused .noSuchRegisterByte
  else complete s (.byte (s.layer (layerOf id))[layerOffset off])

/-- `LRGW` (R124): the raw write of a whole layer byte. -/
def execLrgw (id : BitVec 8) (off : BitVec 3) (val : BitVec 32) (s : State) : Host.Outcome State Fault Refusal :=
  if noLayerByte off then .refused .noSuchRegisterByte
  else complete (s.setLayer (layerOf id) ((s.layer (layerOf id)).set (layerOffset off).val (byteOf val))) .nothing

/-- `SRGR` (R125): `result <- SREG[id[6:0]][off]`. -/
def execSrgr (id : BitVec 8) (off : BitVec 3) (s : State) : Host.Outcome State Fault Refusal :=
  complete s (.byte (s.sprite (spriteOf id))[off.toFin])

/-- `SRGW` (R126): the raw write of a whole sprite byte. -/
def execSrgw (id : BitVec 8) (off : BitVec 3) (val : BitVec 32) (s : State) : Host.Outcome State Fault Refusal :=
  complete (s.setSprite (spriteOf id) ((s.sprite (spriteOf id)).set off.toNat (byteOf val) off.isLt)) .nothing

end Sys2Proof.Machine
end

