-- ==== Sys2Proof/Machine/LayerCodec.lean ====
section
/-! DEFINITION. The Register Codec, layer record (42_layer_codec): `LDEC` and the eleven `LENC` operations. -/

namespace Sys2Proof.Machine

/-- The decode of the 7 bytes of a layer block (R150). Every content decodes; unused bits influence nothing. -/
def decodeLayer (B : LayerBlock) : LayerProperties :=
  { colorDepthCode := bits B[0] 1 0
    bitmapMode := bit B[0] 2
    textMode256Color := bit B[0] 3
    mapWidthLog2 := bits B[0] 5 4 + 5
    mapHeightLog2 := bits B[0] 7 6 + 5
    mapBase := B[1].toNat <<< 9
    tileBase := bits B[2] 7 2 <<< 11
    tileHeightLog2 := bits B[2] 1 1 + 3
    tileWidthLog2 := bits B[2] 0 0 + 3
    hScroll := B[3].toNat ||| (bits B[4] 3 0 <<< 8)
    vScroll := B[5].toNat ||| (bits B[6] 3 0 <<< 8) }

/-- The derived layer values, functions of the fields alone (10_state R32). -/
def deriveLayer (p : LayerProperties) : LayerDerived :=
  { bitsPerPixel := 1 <<< p.colorDepthCode
    mapWidth := 2 ^ p.mapWidthLog2
    mapHeight := 2 ^ p.mapHeightLog2
    tileWidthPixels := 2 ^ p.tileWidthLog2
    tileHeightPixels := 2 ^ p.tileHeightLog2
    tileBytes := 2 ^ p.tileWidthLog2 * 2 ^ p.tileHeightLog2 * (1 <<< p.colorDepthCode) / 8
    textMode := decide (1 <<< p.colorDepthCode = 1) && !p.bitmapMode
    bitmapWidthPixels := if p.tileWidthLog2 = 4 then 640 else 320
    paletteSelector := (p.hScroll >>> 8) % 16 }

/-- A record whose every field is inside the range column of 10_state R31 (R33). -/
def LayerProperties.valid (p : LayerProperties) : Bool :=
  decide (p.colorDepthCode ≤ 3) && decide (p.mapBase ≤ 0x1FE00 ∧ p.mapBase % 512 = 0) &&
    decide (5 ≤ p.mapWidthLog2 ∧ p.mapWidthLog2 ≤ 8) && decide (5 ≤ p.mapHeightLog2 ∧ p.mapHeightLog2 ≤ 8) &&
    decide (p.tileBase ≤ 0x1F800 ∧ p.tileBase % 2048 = 0) &&
    decide (3 ≤ p.tileWidthLog2 ∧ p.tileWidthLog2 ≤ 4) && decide (3 ≤ p.tileHeightLog2 ∧ p.tileHeightLog2 ≤ 4) &&
    decide (p.hScroll ≤ 4095) && decide (p.vScroll ≤ 4095)

/-- The "clamped, aligned image" of a record (R163). -/
def LayerProperties.image (p : LayerProperties) : LayerProperties :=
  { p with
    colorDepthCode := min p.colorDepthCode 3
    mapBase := min p.mapBase 0x1FE00 / 512 * 512
    mapWidthLog2 := clamp p.mapWidthLog2 5 8
    mapHeightLog2 := clamp p.mapHeightLog2 5 8
    tileBase := min p.tileBase 0x1F800 / 2048 * 2048
    tileWidthLog2 := clamp p.tileWidthLog2 3 4
    tileHeightLog2 := clamp p.tileHeightLog2 3 4
    hScroll := min p.hScroll 4095
    vScroll := min p.vScroll 4095 }

/-- `LDEC` (R150): the record of layer `id[0]` and its derived values. -/
def execLdec (id : BitVec 8) (s : State) : Host.Outcome State Fault Refusal :=
  complete s (.layer (decodeLayer (s.layer (layerOf id))) (deriveLayer (decodeLayer (s.layer (layerOf id)))))

/-- The common encode step over the block of layer `id[0]`, one atomic read-modify-write (R151, 20_memory R67). -/
def encodeLayerField (f : BlockField 7) (id : BitVec 8) (val : BitVec 32) (s : State) :
    Host.Outcome State Fault Refusal :=
  complete (s.setLayer (layerOf id) (f.encode (fieldValueOf val) (s.layer (layerOf id)))) .nothing

/-- `LENC.DEPTH` (R152): set `colorDepthCode`. -/
def execLencDepth (id : BitVec 8) (val : BitVec 32) (s : State) : Host.Outcome State Fault Refusal :=
  encodeLayerField fieldDepth id val s

/-- `LENC.BITMAP` (R153): set `bitmapMode`. -/
def execLencBitmap (id : BitVec 8) (val : BitVec 32) (s : State) : Host.Outcome State Fault Refusal :=
  encodeLayerField fieldBitmap id val s

/-- `LENC.T256C` (R154): set `textMode256Color`. -/
def execLencT256c (id : BitVec 8) (val : BitVec 32) (s : State) : Host.Outcome State Fault Refusal :=
  encodeLayerField fieldT256c id val s

/-- `LENC.MAPW` (R155): set `mapWidthLog2`. -/
def execLencMapw (id : BitVec 8) (val : BitVec 32) (s : State) : Host.Outcome State Fault Refusal :=
  encodeLayerField fieldMapWidth id val s

/-- `LENC.MAPH` (R156): set `mapHeightLog2`. -/
def execLencMaph (id : BitVec 8) (val : BitVec 32) (s : State) : Host.Outcome State Fault Refusal :=
  encodeLayerField fieldMapHeight id val s

/-- `LENC.MAPBASE` (R157): set `mapBase`. -/
def execLencMapbase (id : BitVec 8) (val : BitVec 32) (s : State) : Host.Outcome State Fault Refusal :=
  encodeLayerField fieldMapBase id val s

/-- `LENC.TILEBASE` (R158): set `tileBase`. -/
def execLencTilebase (id : BitVec 8) (val : BitVec 32) (s : State) : Host.Outcome State Fault Refusal :=
  encodeLayerField fieldTileBase id val s

/-- `LENC.TILEW` (R159): set `tileWidthLog2`. -/
def execLencTilew (id : BitVec 8) (val : BitVec 32) (s : State) : Host.Outcome State Fault Refusal :=
  encodeLayerField fieldTileWidth id val s

/-- `LENC.TILEH` (R160): set `tileHeightLog2`. -/
def execLencTileh (id : BitVec 8) (val : BitVec 32) (s : State) : Host.Outcome State Fault Refusal :=
  encodeLayerField fieldTileHeight id val s

/-- `LENC.HSCROLL` (R161): set `hScroll`. -/
def execLencHscroll (id : BitVec 8) (val : BitVec 32) (s : State) : Host.Outcome State Fault Refusal :=
  encodeLayerField fieldHScroll id val s

/-- `LENC.VSCROLL` (R162): set `vScroll`. -/
def execLencVscroll (id : BitVec 8) (val : BitVec 32) (s : State) : Host.Outcome State Fault Refusal :=
  encodeLayerField fieldVScroll id val s

end Sys2Proof.Machine
end

