-- ==== Sys2Proof/Machine/Unpacker.lean ====
section
/-! DEFINITION. The Bitplane Unpacker (41_unpacker): the packed lanes of a byte and `UNPK`. -/

namespace Sys2Proof.Machine

/-- Pixels per source byte: `8 div bpp` (R140). -/
def pixelsPerByte (bpp : Nat) : Nat := 8 / bpp

/-- Lane `k` of a byte, 0 the most significant: `(b >> (8 - bpp × (k + 1))) & ((1 << bpp) - 1)` (R140, 30_encoding
R103). -/
def lane (bpp : Nat) (b : Byte) (k : Nat) : Byte :=
  (b >>> (8 - bpp * (k + 1))) &&& BitVec.ofNat 8 ((1 <<< bpp) - 1)

/-- The unpacked indices: `min(n, len(src) × per)` of them, the `i`-th from lane `i mod per` of byte `i div per`
(R140, early stop R142). -/
def unpack (bpp n : Nat) (src : List Byte) : List Byte :=
  (List.range (min n (src.length * pixelsPerByte bpp))).map fun i =>
    lane bpp (src.getD (i / pixelsPerByte bpp) 0#8) (i % pixelsPerByte bpp)

/-- `UNPK` (R140). It reads and writes no state but the result port. Above 2^24 pixels the result is the free value
of log 9. -/
def execUnpk (depth : BitVec 2) (len : BitVec 25) (src : List Byte) (s : State) : Host.Outcome State Fault Refusal :=
  complete s (.bytes (if len.toNat ≤ Config.maxUnpackCount then unpack (bppOf depth) len.toNat src
    else Config.unpkBeyondRange depth len src))

end Sys2Proof.Machine
end

