-- ==== Sys2Proof/Machine/LayerCompositor.lean ====
section
/-! DEFINITION. The Tilemap/Bitmap Compositor (44_layer_compositor): `RLAYER`. The video memory and the palette
snapshot are arguments, so that what a render can depend on is in its type. -/

namespace Sys2Proof.Machine

/-- A buffer whose size is fixed first and whose pixel `i` is then `f i` (10_state R37, 44_layer_compositor R223). -/
def tabulate (width height : Nat) (f : Nat → Colour) : PixelBuffer :=
  { width := width, height := height, data := (List.range (width * height)).map f }

/-- The output pixel `PX[ci]` of a final colour index (R211). Every index the rules compute is below 256 (R212, R219,
R220, R241), so the remainder only makes it an index. -/
def colourAt (px : Vector Colour 256) (ci : Nat) : Colour := px[ci % 256]'(Nat.mod_lt _ (by decide))

/-- The layer palette offset with the [1,15] quirk: 16 times the selector, added to indices 1 to 15 only (R212). -/
def poff (idx q : Nat) : Nat := if 1 ≤ idx ∧ idx ≤ 15 then idx + 16 * q else idx

/-- The index of pixel `i` of the linear run of packed pixels that starts at an address (R213, 47_region_preview
R270): lane `i mod per` of the byte at `base + i div per`, wrapped. -/
def linearIndex (m : Memory) (base bpp i : Nat) : Nat :=
  (lane bpp (vramByte m (base + i / pixelsPerByte bpp)) (i % pixelsPerByte bpp)).toNat

/-- `BitmapRender` (R213): a palette lookup with the quirk at every depth. -/
def bitmapRender (m : Memory) (px : Vector Colour 256) (p : LayerProperties) : PixelBuffer :=
  let d := deriveLayer p
  tabulate d.bitmapWidthPixels Config.bitmapHeight fun i =>
    colourAt px (poff (linearIndex m p.tileBase d.bitsPerPixel i) d.paletteSelector)

/-- A decoded map cell: a text cell's tile and its two colours (30_encoding R98, R99), or a tile cell's tile, flips
and palette selector (R100). -/
inductive MapCell where
  | text (tile fg bg : Nat)
  | tile (tile : Nat) (hFlip vFlip : Bool) (selector : Nat)
  deriving DecidableEq, Repr

/-- Decodes the two bytes of a map cell as the layer's depth and T256C flag choose (R215, R106). -/
def decodeCell (p : LayerProperties) (c0 c1 : Byte) : MapCell :=
  if (deriveLayer p).bitsPerPixel = 1 then
    if p.textMode256Color then .text c0.toNat c1.toNat 0
    else .text c0.toNat (bits c1 3 0) (bits c1 7 4)
  else .tile (c0.toNat ||| (bits c1 1 0 <<< 8)) (bit c1 2) (bit c1 3) (bits c1 7 4)

/-- The cell at grid column `cx`, row `cy`: row-major from `mapBase`, 2 bytes each, the less significant first
(R215, 30_encoding R97). -/
def fetchCell (m : Memory) (p : LayerProperties) (cx cy : Nat) : MapCell :=
  let ca := p.mapBase + Config.mapCellBytes * (cy * (deriveLayer p).mapWidth + cx)
  decodeCell p (vramByte m ca) (vramByte m (ca + 1))

/-- The tile number of a cell. -/
def MapCell.tileIndex : MapCell → Nat
  | .text ti _ _ => ti
  | .tile ti _ _ _ => ti

/-- The unpacked pixels of a tile, row-major (R216). -/
def tilePixels (m : Memory) (p : LayerProperties) (ti : Nat) : List Byte :=
  let d := deriveLayer p
  unpack d.bitsPerPixel (d.tileWidthPixels * d.tileHeightPixels)
    (memRead m (p.tileBase + ti * d.tileBytes) d.tileBytes)

/-- The position in the tile that a destination position shows: mirrored along each axis whose flip is set; text cells
have no flips (R217). -/
def MapCell.sourceIndex (c : MapCell) (tw th tx ty : Nat) : Nat :=
  match c with
  | .text _ _ _ => ty * tw + tx
  | .tile _ hf vf _ => (if vf then th - 1 - ty else ty) * tw + (if hf then tw - 1 - tx else tx)

/-- The colour index of an unpacked index: foreground for 1 and background for 0 in a text cell, with no offset (R219,
R220); the quirk with the cell's own selector in a tile cell (R218). -/
def MapCell.colourIndex (c : MapCell) (idx : Nat) : Nat :=
  match c with
  | .text _ fg bg => if idx = 1 then fg else bg
  | .tile _ _ _ q => poff idx q

/-- The pixel at (`tx`, `ty`) of cell (`cx`, `cy`) (R215 to R221). -/
def tilePixel (m : Memory) (px : Vector Colour 256) (p : LayerProperties) (cx cy tx ty : Nat) : Colour :=
  let d := deriveLayer p
  let c := fetchCell m p cx cy
  let j := c.sourceIndex d.tileWidthPixels d.tileHeightPixels tx ty
  colourAt px (c.colourIndex ((tilePixels m p c.tileIndex).getD j 0#8).toNat)

/-- `TileRender` (R214, R221): the whole map; buffer column `X` and row `Y` show position (`X mod tw`, `Y mod th`) of
cell (`X div tw`, `Y div th`). Scroll plays no part (R222). -/
def tileRender (m : Memory) (px : Vector Colour 256) (p : LayerProperties) : PixelBuffer :=
  let d := deriveLayer p
  let tw := d.tileWidthPixels
  let th := d.tileHeightPixels
  let width := tw * d.mapWidth
  tabulate width (th * d.mapHeight) fun i =>
    tilePixel m px p (i % width / tw) (i / width / th) (i % width % tw) (i / width % th)

/-- Renders the layer a block describes (R210). -/
def renderLayer (m : Memory) (pal : Vector Cell12 256) (B : LayerBlock) : PixelBuffer :=
  let p := decodeLayer B
  if p.bitmapMode then bitmapRender m (palx pal) p else tileRender m (palx pal) p

/-- `RLAYER` (R210). -/
def execRlayer (id : BitVec 8) (s : State) : Host.Outcome State Fault Refusal :=
  complete s (.pixels (renderLayer s.vram s.pal (s.layer (layerOf id))))

end Sys2Proof.Machine
end

