-- ==== Sys2Proof/Machine/Palette.lean ====
section
/-! DEFINITION. The Palette Converter (46_palette): `PEXP`, `PQNT`, `PGET`, `PSETC`, `PSETQ`. -/

namespace Sys2Proof.Machine

/-- `PEXP` (R250): expand the cell in `val[11:0]`. -/
def execPexp (val : BitVec 32) (s : State) : Host.Outcome State Fault Refusal :=
  complete s (.colour (expand (cellOf val)))

/-- `PQNT` (R251): quantize the colour in `val`. -/
def execPqnt (val : BitVec 32) (s : State) : Host.Outcome State Fault Refusal :=
  complete s (.cell (quantize val))

/-- `PGET` (R252): the 256 expanded colours, a snapshot. -/
def execPget (s : State) : Host.Outcome State Fault Refusal :=
  complete s (.colours (palx s.pal))

/-- `PSETC` (R253): `PAL[id] <- val[11:0]`. -/
def execPsetc (id : BitVec 8) (val : BitVec 32) (s : State) : Host.Outcome State Fault Refusal :=
  complete (s.setPalCell (palIndexOf id) (cellOf val)) .nothing

/-- `PSETQ` (R254): `PAL[id] <- quantize(val)`. -/
def execPsetq (id : BitVec 8) (val : BitVec 32) (s : State) : Host.Outcome State Fault Refusal :=
  complete (s.setPalCell (palIndexOf id) (quantize val)) .nothing

end Sys2Proof.Machine
end

