-- ==== Sys2Proof/Machine/RegionPreview.lean ====
section
/-! DEFINITION. The generic region preview (47_region_preview): `RREGION`. -/

namespace Sys2Proof.Machine

/-- Renders a linear run of video memory as a clamped `w` by `h` picture (R270, R272): one continuous pixel stream,
whose rows may start in the middle of a byte. -/
def renderRegion (m : Memory) (pal : Vector Cell12 256) (addr w h bpp q : Nat) : PixelBuffer :=
  tabulate (clamp w 1 Config.maxViewSide) (clamp h 1 Config.maxViewSide) fun i =>
    colourAt (palx pal) (poff (linearIndex m addr bpp i) q)

/-- `RREGION` (R270): `refuse(region_source_not_modelled)` for a source other than video memory (R271). -/
def execRregion (id : BitVec 8) (addr : Offset) (w h : BitVec 13) (depth : BitVec 2) (sel : BitVec 4) (s : State) :
    Host.Outcome State Fault Refusal :=
  if regionSourceUnknown id then .refused .regionSourceUnknown
  else complete s (.pixels (renderRegion s.vram s.pal addr.toNat w.toNat h.toNat (bppOf depth) sel.toNat))

end Sys2Proof.Machine
end

