-- ==== Sys2Proof/Machine/SpriteCodec.lean ====
section
/-! DEFINITION. The Register Codec, sprite record (43_sprite_codec): `SDEC` and the eleven `SENC` operations. -/

namespace Sys2Proof.Machine

/-- The decode of the 8 bytes of a sprite block (R180). Every content decodes; unused bits influence nothing; `x` and
`y` are the raw unsigned numbers. -/
def decodeSprite (B : SpriteBlock) : SpriteProperties :=
  { address := (B[0].toNat <<< 5) ||| (bits B[1] 3 0 <<< 13)
    colorMode := bit B[1] 7
    x := B[2].toNat ||| (bits B[3] 1 0 <<< 8)
    y := B[4].toNat ||| (bits B[5] 1 0 <<< 8)
    hFlip := bit B[6] 0
    vFlip := bit B[6] 1
    zDepth := bits B[6] 3 2
    collisionMask := bits B[6] 7 4
    paletteOffset := bits B[7] 3 0 <<< 4
    widthLog2 := bits B[7] 5 4 + 3
    heightLog2 := bits B[7] 7 6 + 3 }

/-- The derived sprite values, functions of the fields alone (10_state R35). -/
def deriveSprite (p : SpriteProperties) : SpriteDerived :=
  { bitsPerPixel := 4 <<< p.colorMode.toNat
    widthPixels := 2 ^ p.widthLog2
    heightPixels := 2 ^ p.heightLog2
    pixelCount := 2 ^ (p.widthLog2 + p.heightLog2)
    dataBytes := 2 ^ (p.widthLog2 + p.heightLog2) * (4 <<< p.colorMode.toNat) / 8 }

/-- A record whose every field is inside the range column of 10_state R34 (R36). -/
def SpriteProperties.valid (p : SpriteProperties) : Bool :=
  decide (p.address ≤ 0x1FFE0 ∧ p.address % 32 = 0) && decide (p.x ≤ 1023) && decide (p.y ≤ 1023) &&
    decide (p.zDepth ≤ 3) && decide (p.collisionMask ≤ 15) &&
    decide (p.paletteOffset ≤ 240 ∧ p.paletteOffset % 16 = 0) &&
    decide (3 ≤ p.widthLog2 ∧ p.widthLog2 ≤ 6) && decide (3 ≤ p.heightLog2 ∧ p.heightLog2 ≤ 6)

/-- The "clamped, aligned image" of a record (R193). -/
def SpriteProperties.image (p : SpriteProperties) : SpriteProperties :=
  { p with
    address := min p.address 0x1FFE0 / 32 * 32
    x := min p.x 1023
    y := min p.y 1023
    zDepth := min p.zDepth 3
    collisionMask := min p.collisionMask 15
    paletteOffset := min p.paletteOffset 240 / 16 * 16
    widthLog2 := clamp p.widthLog2 3 6
    heightLog2 := clamp p.heightLog2 3 6 }

/-- `SDEC` (R180): the record of sprite `id[6:0]` and its derived values. -/
def execSdec (id : BitVec 8) (s : State) : Host.Outcome State Fault Refusal :=
  complete s (.sprite (decodeSprite (s.sprite (spriteOf id))) (deriveSprite (decodeSprite (s.sprite (spriteOf id)))))

/-- The common encode step over the block of sprite `id[6:0]`, one atomic read-modify-write (R181, 20_memory R67). -/
def encodeSpriteField (f : BlockField 8) (id : BitVec 8) (val : BitVec 32) (s : State) :
    Host.Outcome State Fault Refusal :=
  complete (s.setSprite (spriteOf id) (f.encode (fieldValueOf val) (s.sprite (spriteOf id)))) .nothing

/-- `SENC.ADDR` (R182): set `address`. -/
def execSencAddr (id : BitVec 8) (val : BitVec 32) (s : State) : Host.Outcome State Fault Refusal :=
  encodeSpriteField fieldAddress id val s

/-- `SENC.MODE` (R183): set `colorMode`. -/
def execSencMode (id : BitVec 8) (val : BitVec 32) (s : State) : Host.Outcome State Fault Refusal :=
  encodeSpriteField fieldColorMode id val s

/-- `SENC.X` (R184): set `x`. -/
def execSencX (id : BitVec 8) (val : BitVec 32) (s : State) : Host.Outcome State Fault Refusal :=
  encodeSpriteField fieldX id val s

/-- `SENC.Y` (R185): set `y`. -/
def execSencY (id : BitVec 8) (val : BitVec 32) (s : State) : Host.Outcome State Fault Refusal :=
  encodeSpriteField fieldY id val s

/-- `SENC.HFLIP` (R186): set `hFlip`. -/
def execSencHflip (id : BitVec 8) (val : BitVec 32) (s : State) : Host.Outcome State Fault Refusal :=
  encodeSpriteField fieldHFlip id val s

/-- `SENC.VFLIP` (R187): set `vFlip`. -/
def execSencVflip (id : BitVec 8) (val : BitVec 32) (s : State) : Host.Outcome State Fault Refusal :=
  encodeSpriteField fieldVFlip id val s

/-- `SENC.ZDEPTH` (R188): set `zDepth`. -/
def execSencZdepth (id : BitVec 8) (val : BitVec 32) (s : State) : Host.Outcome State Fault Refusal :=
  encodeSpriteField fieldZDepth id val s

/-- `SENC.COLL` (R189): set `collisionMask`. -/
def execSencColl (id : BitVec 8) (val : BitVec 32) (s : State) : Host.Outcome State Fault Refusal :=
  encodeSpriteField fieldCollision id val s

/-- `SENC.PALOFF` (R190): set `paletteOffset`. -/
def execSencPaloff (id : BitVec 8) (val : BitVec 32) (s : State) : Host.Outcome State Fault Refusal :=
  encodeSpriteField fieldPaletteOffset id val s

/-- `SENC.WIDTH` (R191): set `widthLog2`. -/
def execSencWidth (id : BitVec 8) (val : BitVec 32) (s : State) : Host.Outcome State Fault Refusal :=
  encodeSpriteField fieldWidth id val s

/-- `SENC.HEIGHT` (R192): set `heightLog2`. -/
def execSencHeight (id : BitVec 8) (val : BitVec 32) (s : State) : Host.Outcome State Fault Refusal :=
  encodeSpriteField fieldHeight id val s

end Sys2Proof.Machine
end

