-- ==== Sys2Proof/Machine/SpriteCompositor.lean ====
section
/-! DEFINITION. The Sprite Compositor (45_sprite_compositor): `RSPRITE`. -/

namespace Sys2Proof.Machine

/-- Renders the sprite a block describes (R240): the offset is added to every index, mod 256 (R241); flips, position,
depth and collision mask play no part (R242, R243). -/
def renderSprite (m : Memory) (pal : Vector Cell12 256) (B : SpriteBlock) : PixelBuffer :=
  let p := decodeSprite B
  let d := deriveSprite p
  let px := palx pal
  let src := memRead m p.address (d.pixelCount * d.bitsPerPixel / 8)
  { width := d.widthPixels
    height := d.heightPixels
    data := (unpack d.bitsPerPixel d.pixelCount src).map fun i => colourAt px ((i.toNat + p.paletteOffset) % 256) }

/-- `RSPRITE` (R240). -/
def execRsprite (id : BitVec 8) (s : State) : Host.Outcome State Fault Refusal :=
  complete s (.pixels (renderSprite s.vram s.pal (s.sprite (spriteOf id))))

end Sys2Proof.Machine
end

