-- ==== Sys2Proof/Machine/Dispatch.lean ====
section
/-! DEFINITION. What each operation does: one arm per constructor, one meaning per arm. -/

namespace Sys2Proof.Machine

def exec (i : Instr) (s : State) : Host.Outcome State Fault Refusal :=
  match i with
  | .rdb addr => Sys2Proof.Machine.execRdb addr s
  | .rdr addr len => Sys2Proof.Machine.execRdr addr len s
  | .wrb addr val => Sys2Proof.Machine.execWrb addr val s
  | .lrgr id off => Sys2Proof.Machine.execLrgr id off s
  | .lrgw id off val => Sys2Proof.Machine.execLrgw id off val s
  | .srgr id off => Sys2Proof.Machine.execSrgr id off s
  | .srgw id off val => Sys2Proof.Machine.execSrgw id off val s
  | .unpk depth len src => Sys2Proof.Machine.execUnpk depth len src s
  | .ldec id => Sys2Proof.Machine.execLdec id s
  | .lencDepth id val => Sys2Proof.Machine.execLencDepth id val s
  | .lencBitmap id val => Sys2Proof.Machine.execLencBitmap id val s
  | .lencT256c id val => Sys2Proof.Machine.execLencT256c id val s
  | .lencMapw id val => Sys2Proof.Machine.execLencMapw id val s
  | .lencMaph id val => Sys2Proof.Machine.execLencMaph id val s
  | .lencMapbase id val => Sys2Proof.Machine.execLencMapbase id val s
  | .lencTilebase id val => Sys2Proof.Machine.execLencTilebase id val s
  | .lencTilew id val => Sys2Proof.Machine.execLencTilew id val s
  | .lencTileh id val => Sys2Proof.Machine.execLencTileh id val s
  | .lencHscroll id val => Sys2Proof.Machine.execLencHscroll id val s
  | .lencVscroll id val => Sys2Proof.Machine.execLencVscroll id val s
  | .sdec id => Sys2Proof.Machine.execSdec id s
  | .sencAddr id val => Sys2Proof.Machine.execSencAddr id val s
  | .sencMode id val => Sys2Proof.Machine.execSencMode id val s
  | .sencX id val => Sys2Proof.Machine.execSencX id val s
  | .sencY id val => Sys2Proof.Machine.execSencY id val s
  | .sencHflip id val => Sys2Proof.Machine.execSencHflip id val s
  | .sencVflip id val => Sys2Proof.Machine.execSencVflip id val s
  | .sencZdepth id val => Sys2Proof.Machine.execSencZdepth id val s
  | .sencColl id val => Sys2Proof.Machine.execSencColl id val s
  | .sencPaloff id val => Sys2Proof.Machine.execSencPaloff id val s
  | .sencWidth id val => Sys2Proof.Machine.execSencWidth id val s
  | .sencHeight id val => Sys2Proof.Machine.execSencHeight id val s
  | .rlayer id => Sys2Proof.Machine.execRlayer id s
  | .rregion id addr w h depth sel => Sys2Proof.Machine.execRregion id addr w h depth sel s
  | .rsprite id => Sys2Proof.Machine.execRsprite id s
  | .pexp val => Sys2Proof.Machine.execPexp val s
  | .pqnt val => Sys2Proof.Machine.execPqnt val s
  | .pget => Sys2Proof.Machine.execPget s
  | .psetc id val => Sys2Proof.Machine.execPsetc id val s
  | .psetq id val => Sys2Proof.Machine.execPsetq id val s

end Sys2Proof.Machine
end

