-- ==== Sys2Proof/Machine/Step.lean ====
section
/-! DEFINITION. One step: the next thing the host does (10_state R41). Each operation runs to completion before the
next is accepted (R29), and operations take effect in issue order (20_memory R65). -/

namespace Sys2Proof.Machine

/-- Runs the command on the command port: the operation it spells, or no operation for a reserved opcode (R105). -/
def runCommand (c : Command) (s : State) : Host.Outcome State Fault Refusal :=
  match decode c with
  | .ok i => exec i s
  | .error (.reservedOpcode op) => .refused (.reservedOpcode op)

/-- One step. The action is off the schedule before it takes effect; with none the engine is idle (log 15). -/
def step (s : State) : Host.Outcome State Fault Refusal :=
  match s.schedule with
  | [] => .next (idle s)
  | .command c :: rest => runCommand c (s.setSchedule rest)
  | .write w :: rest => .next (hostWrite w (s.setSchedule rest))

/-- The state in which the host issues the command of a table word next, before all else on its schedule: the block
fetches nothing (10_state R29), so this is the one place a command comes from (log 1). -/
def State.withFetchWord (s : State) (nbits w : Nat) : State :=
  s.setSchedule (.command (tableCommand nbits w) :: s.schedule)

end Sys2Proof.Machine
end

