-- ==== Sys2Proof/Machine/Pseudo.lean ====
section
/-! DEFINITION. Sequences of operations, in issue order (20_memory R65), and the three pseudo-operations, "each an
abbreviation for a fixed sequence" (30_encoding R108). -/

namespace Sys2Proof.Machine

/-- Operations one after another, stopping at the first refusal. -/
def runOps : List Instr → State → Host.Outcome State Fault Refusal
  | [], s => .next s
  | i :: rest, s =>
    match exec i s with
    | .next t => runOps rest t
    | .fault r => .fault r
    | .refused r => .refused r

/-- `LENCALL l, P` (R108): the source's `encodeAllFields` on a layer. -/
def lencall (id : BitVec 8) (p : LayerProperties) : List Instr :=
  [ .lencDepth id (BitVec.ofNat 32 p.colorDepthCode),
    .lencBitmap id (BitVec.ofNat 32 p.bitmapMode.toNat),
    .lencT256c id (BitVec.ofNat 32 p.textMode256Color.toNat),
    .lencMapw id (BitVec.ofNat 32 p.mapWidthLog2),
    .lencMaph id (BitVec.ofNat 32 p.mapHeightLog2),
    .lencMapbase id (BitVec.ofNat 32 p.mapBase),
    .lencTilebase id (BitVec.ofNat 32 p.tileBase),
    .lencTilew id (BitVec.ofNat 32 p.tileWidthLog2),
    .lencTileh id (BitVec.ofNat 32 p.tileHeightLog2),
    .lencHscroll id (BitVec.ofNat 32 p.hScroll),
    .lencVscroll id (BitVec.ofNat 32 p.vScroll) ]

/-- `SENCALL s, P` (R108): the source's `encodeAllFields` on a sprite. -/
def sencall (id : BitVec 8) (p : SpriteProperties) : List Instr :=
  [ .sencAddr id (BitVec.ofNat 32 p.address),
    .sencMode id (BitVec.ofNat 32 p.colorMode.toNat),
    .sencX id (BitVec.ofNat 32 p.x),
    .sencY id (BitVec.ofNat 32 p.y),
    .sencHflip id (BitVec.ofNat 32 p.hFlip.toNat),
    .sencVflip id (BitVec.ofNat 32 p.vFlip.toNat),
    .sencZdepth id (BitVec.ofNat 32 p.zDepth),
    .sencColl id (BitVec.ofNat 32 p.collisionMask),
    .sencPaloff id (BitVec.ofNat 32 p.paletteOffset),
    .sencWidth id (BitVec.ofNat 32 p.widthLog2),
    .sencHeight id (BitVec.ofNat 32 p.heightLog2) ]

/-- `PSET i, rgba` (R108): the palette "set" edit is `PSETQ i, rgba`. -/
def pset (id : BitVec 8) (rgba : BitVec 32) : List Instr := [.psetq id rgba]

/-- The encodable layer fields, in the order of their ids (30_encoding R90). -/
inductive LayerFieldId where
  | colorDepthCode | bitmapMode | textMode256Color | mapWidthLog2 | mapHeightLog2 | mapBase | tileBase | tileWidthLog2 | tileHeightLog2 | hScroll | vScroll
  deriving DecidableEq, Repr

/-- The field id: the low nibble of the opcode (30_encoding R80, R90). -/
def LayerFieldId.number : LayerFieldId → Nat
  | .colorDepthCode => 1
  | .bitmapMode => 2
  | .textMode256Color => 3
  | .mapWidthLog2 => 4
  | .mapHeightLog2 => 5
  | .mapBase => 6
  | .tileBase => 7
  | .tileWidthLog2 => 8
  | .tileHeightLog2 => 9
  | .hScroll => 10
  | .vScroll => 11

/-- The operation of the source's `encodeLayerField(id, fieldId, newValue)` (30_encoding R80). -/
def encodeLayerOp (f : LayerFieldId) (id : BitVec 8) (val : BitVec 32) : Instr :=
  match f with
  | .colorDepthCode => .lencDepth id val
  | .bitmapMode => .lencBitmap id val
  | .textMode256Color => .lencT256c id val
  | .mapWidthLog2 => .lencMapw id val
  | .mapHeightLog2 => .lencMaph id val
  | .mapBase => .lencMapbase id val
  | .tileBase => .lencTilebase id val
  | .tileWidthLog2 => .lencTilew id val
  | .tileHeightLog2 => .lencTileh id val
  | .hScroll => .lencHscroll id val
  | .vScroll => .lencVscroll id val

/-- A record with one property replaced by the clamped, aligned value that an encode of `v` stores (R151, R181). -/
def LayerFieldId.update (f : LayerFieldId) (v : Nat) (p : LayerProperties) : LayerProperties :=
  match f with
  | .colorDepthCode => { p with colorDepthCode := min v 3 }
  | .bitmapMode => { p with bitmapMode := decide (v ≠ 0) }
  | .textMode256Color => { p with textMode256Color := decide (v ≠ 0) }
  | .mapWidthLog2 => { p with mapWidthLog2 := clamp v 5 8 }
  | .mapHeightLog2 => { p with mapHeightLog2 := clamp v 5 8 }
  | .mapBase => { p with mapBase := min v 0x1FE00 / 512 * 512 }
  | .tileBase => { p with tileBase := min v 0x1F800 / 2048 * 2048 }
  | .tileWidthLog2 => { p with tileWidthLog2 := clamp v 3 4 }
  | .tileHeightLog2 => { p with tileHeightLog2 := clamp v 3 4 }
  | .hScroll => { p with hScroll := min v 4095 }
  | .vScroll => { p with vScroll := min v 4095 }

/-- The encodable sprite fields, in the order of their ids (30_encoding R96). -/
inductive SpriteFieldId where
  | address | colorMode | x | y | hFlip | vFlip | zDepth | collisionMask | paletteOffset | widthLog2 | heightLog2
  deriving DecidableEq, Repr

/-- The field id: the low nibble of the opcode (30_encoding R80, R96). -/
def SpriteFieldId.number : SpriteFieldId → Nat
  | .address => 1
  | .colorMode => 2
  | .x => 3
  | .y => 4
  | .hFlip => 5
  | .vFlip => 6
  | .zDepth => 7
  | .collisionMask => 8
  | .paletteOffset => 9
  | .widthLog2 => 10
  | .heightLog2 => 11

/-- The operation of the source's `encodeSpriteField(id, fieldId, newValue)` (30_encoding R80). -/
def encodeSpriteOp (f : SpriteFieldId) (id : BitVec 8) (val : BitVec 32) : Instr :=
  match f with
  | .address => .sencAddr id val
  | .colorMode => .sencMode id val
  | .x => .sencX id val
  | .y => .sencY id val
  | .hFlip => .sencHflip id val
  | .vFlip => .sencVflip id val
  | .zDepth => .sencZdepth id val
  | .collisionMask => .sencColl id val
  | .paletteOffset => .sencPaloff id val
  | .widthLog2 => .sencWidth id val
  | .heightLog2 => .sencHeight id val

/-- A record with one property replaced by the clamped, aligned value that an encode of `v` stores (R151, R181). -/
def SpriteFieldId.update (f : SpriteFieldId) (v : Nat) (p : SpriteProperties) : SpriteProperties :=
  match f with
  | .address => { p with address := min v 0x1FFE0 / 32 * 32 }
  | .colorMode => { p with colorMode := decide (v ≠ 0) }
  | .x => { p with x := min v 1023 }
  | .y => { p with y := min v 1023 }
  | .hFlip => { p with hFlip := decide (v ≠ 0) }
  | .vFlip => { p with vFlip := decide (v ≠ 0) }
  | .zDepth => { p with zDepth := min v 3 }
  | .collisionMask => { p with collisionMask := min v 15 }
  | .paletteOffset => { p with paletteOffset := min v 240 / 16 * 16 }
  | .widthLog2 => { p with widthLog2 := clamp v 3 6 }
  | .heightLog2 => { p with heightLog2 := clamp v 3 6 }

end Sys2Proof.Machine
end

