-- ==== Sys2Proof/Safety.lean ====
section
/-! DEFINITION. What counts as a good state, a reachable state and a safe run, and which space an operation may write. -/

namespace Sys2Proof.Machine

/-- The four spaces of the address map (20_memory R63). -/
inductive Space where
  | vram | lreg | sreg | pal
  deriving DecidableEq, Repr

/-- The space an operation writes, none for the 13 that write nothing: the table of 10_state R39. -/
def spaceWritten : Instr → Option Space
  | .wrb _ _ => some .vram
  | .lrgw _ _ _ => some .lreg
  | .lencDepth _ _ | .lencBitmap _ _ | .lencT256c _ _ | .lencMapw _ _ | .lencMaph _ _ | .lencMapbase _ _ => some .lreg
  | .lencTilebase _ _ | .lencTilew _ _ | .lencTileh _ _ | .lencHscroll _ _ | .lencVscroll _ _ => some .lreg
  | .srgw _ _ _ => some .sreg
  | .sencAddr _ _ | .sencMode _ _ | .sencX _ _ | .sencY _ _ | .sencHflip _ _ | .sencVflip _ _ => some .sreg
  | .sencZdepth _ _ | .sencColl _ _ | .sencPaloff _ _ | .sencWidth _ _ | .sencHeight _ _ => some .sreg
  | .psetc _ _ | .psetq _ _ => some .pal
  | .rdb _ | .rdr _ _ | .lrgr _ _ | .srgr _ _ | .unpk _ _ _ | .ldec _ | .sdec _ => none
  | .rlayer _ | .rregion _ _ _ _ _ _ | .rsprite _ | .pexp _ | .pqnt _ | .pget => none

/-- The kinds of result (10_state R38). -/
inductive ResultKind where
  | nothing | byte | bytes | layer | sprite | colour | cell | colours | pixels
  deriving DecidableEq, Repr

/-- The kind of a value on the result port. -/
def Result.kind : Result → ResultKind
  | .nothing => .nothing
  | .byte _ => .byte
  | .bytes _ => .bytes
  | .layer _ _ => .layer
  | .sprite _ _ => .sprite
  | .colour _ => .colour
  | .cell _ => .cell
  | .colours _ => .colours
  | .pixels _ => .pixels

/-- The kind of result each operation returns (10_state R38, the result column of 30_encoding R82). -/
def resultKindOf : Instr → ResultKind
  | .wrb _ _ | .lrgw _ _ _ | .srgw _ _ _ | .psetc _ _ | .psetq _ _ => .nothing
  | .lencDepth _ _ | .lencBitmap _ _ | .lencT256c _ _ | .lencMapw _ _ | .lencMaph _ _ | .lencMapbase _ _ => .nothing
  | .lencTilebase _ _ | .lencTilew _ _ | .lencTileh _ _ | .lencHscroll _ _ | .lencVscroll _ _ => .nothing
  | .sencAddr _ _ | .sencMode _ _ | .sencX _ _ | .sencY _ _ | .sencHflip _ _ | .sencVflip _ _ => .nothing
  | .sencZdepth _ _ | .sencColl _ _ | .sencPaloff _ _ | .sencWidth _ _ | .sencHeight _ _ => .nothing
  | .rdb _ | .lrgr _ _ | .srgr _ _ => .byte
  | .rdr _ _ | .unpk _ _ _ => .bytes
  | .ldec _ => .layer
  | .sdec _ => .sprite
  | .pexp _ => .colour
  | .pqnt _ => .cell
  | .pget => .colours
  | .rlayer _ | .rregion _ _ _ _ _ _ | .rsprite _ => .pixels

/-- Opaque: the alpha channel in bits 7:0 is 0xFF (30_encoding R102, 46_palette R250). -/
def opaqueColour (c : Colour) : Bool := c.extractLsb' 0 8 == 0xFF#8

/-- What every rule promises of a result value: a buffer has exactly width × height pixels, at least one, all opaque
(10_state R37, 44_layer_compositor R211, R223); a decoded record is valid and its derived values follow from it
(R33, R36); an expanded colour is opaque. -/
def Result.wf : Result → Prop
  | .pixels b => b.data.length = b.width * b.height ∧ 1 ≤ b.width ∧ 1 ≤ b.height ∧ ∀ c ∈ b.data, opaqueColour c = true
  | .layer p d => p.valid = true ∧ d = deriveLayer p
  | .sprite p d => p.valid = true ∧ d = deriveSprite p
  | .colour c => opaqueColour c = true
  | .colours cs => ∀ i : Fin 256, opaqueColour cs[i] = true
  | .nothing | .byte _ | .bytes _ | .cell _ => True

/-- The invariant of the machine: the video memory is in canonical form and the result port holds a well-formed
value. The other spaces are well formed by their types. -/
def State.Inv (s : State) : Prop := Memory.wf s.vram = true ∧ s.result.wf

/-- A command whose opcode is assigned and whose operands its rule admits. -/
def legalCommand (c : Command) : Bool :=
  match decode c with
  | .ok i => i.wf
  | .error _ => false

/-- A host action that asks for nothing the spec refuses: a write, or a legal command. -/
def legalAction : HostAction → Bool
  | .write _ => true
  | .command c => legalCommand c

/-- The states a run can reach: from reset, whatever the host puts on the schedule between steps. -/
inductive Reachable : State → Prop where
  | reset : Reachable State.reset
  | scheduled (s : State) (acts : List HostAction) : Reachable s → Reachable (s.setSchedule acts)
  | stepped (s t : State) : Reachable s → step s = .next t → Reachable t

/-- A safe state: no number of steps ends in a fault or a refusal. -/
def Safe (s : State) : Prop := ∀ n : Nat, ∃ t : State, Host.Core.run Sys2Proof.core n s = .next t

end Sys2Proof.Machine
end

