-- ==== Sys2Proof/Certificates/Slice0/Obligations.lean ====
section
/-! DEFINITION. The statements for the provers, in the order of OBLIGATIONS.json. A statement ranges over every state;
where it holds only of canonical memories it says so. -/

namespace Sys2Proof.Machine

/-- The palette index of packed pixel `j` of the run that starts at a natural-number address: bits of the one byte
that holds it, most significant pixel first (30_encoding R103, 20_memory R55, R56). -/
def packedIndex (m : Memory) (base bpp j : Nat) : Nat :=
  ((Memory.read m ((base + j / (8 / bpp)) % 0x20000)).toNat >>> (8 - bpp * (j % (8 / bpp) + 1))) % 2 ^ bpp

/-- The colour index of position (`tx`, `ty`) of map cell (`cx`, `cy`), straight from 44_layer_compositor R215 to
R220 and 30_encoding R98 to R100. -/
def tileColourIndex (m : Memory) (p : LayerProperties) (cx cy tx ty : Nat) : Nat :=
  let bpp := 2 ^ p.colorDepthCode
  let tw := 2 ^ p.tileWidthLog2
  let th := 2 ^ p.tileHeightLog2
  let tileBytes := tw * th * bpp / 8
  let ca := p.mapBase + 2 * (cy * 2 ^ p.mapWidthLog2 + cx)
  let c0 := (Memory.read m (ca % 0x20000)).toNat
  let c1 := (Memory.read m ((ca + 1) % 0x20000)).toNat
  if bpp = 1 then
    let idx := packedIndex m (p.tileBase + c0 * tileBytes) 1 (ty * tw + tx)
    if p.textMode256Color then (if idx = 1 then c1 else 0) else (if idx = 1 then c1 % 16 else c1 / 16)
  else
    let sx := if c1 / 4 % 2 = 1 then tw - 1 - tx else tx
    let sy := if c1 / 8 % 2 = 1 then th - 1 - ty else ty
    poff (packedIndex m (p.tileBase + (c0 + 256 * (c1 % 4)) * tileBytes) bpp (sy * tw + sx)) (c1 / 16)

/-- The opcodes 30_encoding R105 reserves. -/
def reservedOpcode (op : Nat) : Bool :=
  decide (0x07 ≤ op ∧ op ≤ 0x0F ∨ 0x11 ≤ op ∧ op ≤ 0x1F ∨ 0x2C ≤ op ∧ op ≤ 0x2F ∨ 0x3C ≤ op ∧ op ≤ 0x3F ∨
    0x42 ≤ op ∧ op ≤ 0x4F ∨ 0x51 ≤ op ∧ op ≤ 0x5F ∨ 0x65 ≤ op ∧ op ≤ 0x6F ∨ 0x70 ≤ op ∧ op ≤ 0xFF)

/-- The name under which a command is refused, none for a command that runs: the `refuse` cases of 60_exceptions R287,
straight from its table's ports. -/
def refuseCase (c : Command) : Option Refusal :=
  if reservedOpcode c.op.toNat then some (.reservedOpcode c.op)
  else if c.op = 0x01#8 ∧ 0x20000 < c.len.toNat then some .rangeTooLong
  else if (c.op = 0x03#8 ∨ c.op = 0x04#8) ∧ c.off = 7#3 then some .noSuchRegisterByte
  else if c.op = 0x41#8 ∧ c.id.toNat % 4 ≠ 0 then some .regionSourceUnknown
  else none

/-- The host action that takes a turn: the command of an operation, or a host write (10_state R41). -/
def turnAction : Instr ⊕ HostWrite → HostAction
  | .inl i => .command (encode i)
  | .inr w => .write w

/-- Operations and host writes one after another, in issue order, stopping at the first refusal (20_memory R65). -/
def runTurns : List (Instr ⊕ HostWrite) → State → Host.Outcome State Fault Refusal
  | [], s => .next s
  | .inr w :: rest, s => runTurns rest (hostWrite w s)
  | .inl i :: rest, s =>
    match exec i s with
    | .next t => runTurns rest t
    | .fault r => .fault r
    | .refused r => .refused r

/-- Every property of a record fits the 17 bits an encode reads (30_encoding R81). -/
def LayerProperties.fits (p : LayerProperties) : Prop :=
  p.colorDepthCode < 2 ^ 17 ∧ p.mapBase < 2 ^ 17 ∧ p.mapWidthLog2 < 2 ^ 17 ∧ p.mapHeightLog2 < 2 ^ 17 ∧
    p.tileBase < 2 ^ 17 ∧ p.tileWidthLog2 < 2 ^ 17 ∧ p.tileHeightLog2 < 2 ^ 17 ∧ p.hScroll < 2 ^ 17 ∧ p.vScroll < 2 ^ 17

/-- Every property of a record fits the 17 bits an encode reads (30_encoding R81). -/
def SpriteProperties.fits (p : SpriteProperties) : Prop :=
  p.address < 2 ^ 17 ∧ p.x < 2 ^ 17 ∧ p.y < 2 ^ 17 ∧ p.zDepth < 2 ^ 17 ∧ p.collisionMask < 2 ^ 17 ∧
    p.paletteOffset < 2 ^ 17 ∧ p.widthLog2 < 2 ^ 17 ∧ p.heightLog2 < 2 ^ 17

end Sys2Proof.Machine

open Sys2Proof Sys2Proof.Machine

/-! ## Accessor (40_accessor) -/

/-- R120: `RDB` returns the byte at its offset, for every offset, and changes nothing but the result port. -/
def Obligations.ReadByteReturnsVideoMemory : Prop :=
  ∀ (addr : Offset) (s : State), (Instr.rdb addr).opcode = 0x00#8 ∧
    exec (.rdb addr) s = .next (s.setResult (.byte (Memory.read s.vram addr.toNat)))

/-- R121: `RDR` up to 0x20000 bytes returns `VRAM[(addr + i) mod 0x20000]`, as one sub-read or as two when the range
crosses the top, and changes nothing but the result port; above 0x20000 it is refused. -/
def Obligations.ReadRangeWrapsPastTheTop : Prop :=
  ∀ (addr : Offset) (len : BitVec 25) (s : State), (Instr.rdr addr len).opcode = 0x01#8 ∧
    (len.toNat ≤ 0x20000 → ∃ bs : List Byte, exec (.rdr addr len) s = .next (s.setResult (.bytes bs)) ∧
      bs.length = len.toNat ∧
      (∀ i < len.toNat, bs[i]? = some (Memory.read s.vram ((addr.toNat + i) % 0x20000))) ∧
      (addr.toNat + len.toNat ≤ 0x20000 →
        bs = (List.range len.toNat).map fun i => Memory.read s.vram (addr.toNat + i)) ∧
      (0x20000 < addr.toNat + len.toNat →
        bs = ((List.range (0x20000 - addr.toNat)).map fun i => Memory.read s.vram (addr.toNat + i)) ++
          (List.range (addr.toNat + len.toNat - 0x20000)).map fun i => Memory.read s.vram i)) ∧
    (0x20000 < len.toNat → exec (.rdr addr len) s = .refused .rangeTooLong)

/-- R127: a range read across the top is the concatenation of the reads before and after it; below the top it is the
plain slice; its elements are what `RDB` returns. -/
def Obligations.ReadRangeConcatenatesAtTheTop : Prop :=
  ∀ (addr : Offset) (len : BitVec 25) (s : State), len.toNat ≤ 0x20000 →
    (0x20000 < addr.toNat + len.toNat → ∃ lo hi : List Byte,
      exec (.rdr addr (BitVec.ofNat 25 (0x20000 - addr.toNat))) s = .next (s.setResult (.bytes lo)) ∧
      exec (.rdr 0#17 (BitVec.ofNat 25 (addr.toNat + len.toNat - 0x20000))) s = .next (s.setResult (.bytes hi)) ∧
      exec (.rdr addr len) s = .next (s.setResult (.bytes (lo ++ hi)))) ∧
    (addr.toNat + len.toNat ≤ 0x20000 → exec (.rdr addr len) s =
      .next (s.setResult (.bytes ((List.range len.toNat).map fun i => Memory.read s.vram (addr.toNat + i))))) ∧
    (∀ i < len.toNat, ∃ (bs : List Byte) (b : Byte),
      exec (.rdr addr len) s = .next (s.setResult (.bytes bs)) ∧
      exec (.rdb (BitVec.ofNat 17 ((addr.toNat + i) % 0x20000))) s = .next (s.setResult (.byte b)) ∧ bs[i]? = some b)

/-- R122: `WRB` stores `val[7:0]` at its offset; every other byte reads as before, the other spaces and the schedule
are unchanged, and storing the byte already there changes nothing. -/
def Obligations.WriteByteChangesOneByte : Prop :=
  ∀ (addr : Offset) (val : BitVec 32) (s : State), Memory.wf s.vram = true →
    (Instr.wrb addr val).opcode = 0x02#8 ∧ ∃ t : State, exec (.wrb addr val) s = .next t ∧
      Memory.read t.vram addr.toNat = BitVec.ofNat 8 val.toNat ∧
      (∀ a : Nat, a ≠ addr.toNat → Memory.read t.vram a = Memory.read s.vram a) ∧
      (Memory.read s.vram addr.toNat = BitVec.ofNat 8 val.toNat → t.vram = s.vram) ∧
      t.lreg = s.lreg ∧ t.sreg = s.sreg ∧ t.pal = s.pal ∧ t.schedule = s.schedule ∧ t.result = .nothing

/-- R123, R124: `LRGR` and `LRGW` of layer `id[0]` at offsets 0 to 6 read and replace one whole byte and nothing
else; at offset 7 both are refused. -/
def Obligations.LayerByteReadsAndWrites : Prop :=
  ∀ (id : BitVec 8) (val : BitVec 32) (s : State) (l : Fin 2), l.val = id.toNat % 2 →
    (∀ o : BitVec 3, (Instr.lrgr id o).opcode = 0x03#8 ∧ (Instr.lrgw id o val).opcode = 0x04#8) ∧
    (∀ o : Fin 7,
      exec (.lrgr id (BitVec.ofNat 3 o.val)) s = .next (s.setResult (.byte (s.layer l)[o])) ∧
      ∃ t : State, exec (.lrgw id (BitVec.ofNat 3 o.val) val) s = .next t ∧
        (∀ (l' : Fin 2) (o' : Fin 7), (t.layer l')[o'] =
          if l' = l ∧ o' = o then BitVec.ofNat 8 val.toNat else (s.layer l')[o']) ∧
        (∀ a : Nat, Memory.read t.vram a = Memory.read s.vram a) ∧
        t.vram = s.vram ∧ t.sreg = s.sreg ∧ t.pal = s.pal ∧ t.schedule = s.schedule ∧ t.result = .nothing) ∧
    exec (.lrgr id 7#3) s = .refused .noSuchRegisterByte ∧
    exec (.lrgw id 7#3 val) s = .refused .noSuchRegisterByte

/-- R125, R126: `SRGR` and `SRGW` of sprite `id[6:0]` read and replace one whole byte and nothing else, at every
offset. -/
def Obligations.SpriteByteReadsAndWrites : Prop :=
  ∀ (id : BitVec 8) (off : BitVec 3) (val : BitVec 32) (s : State) (k : Fin 128) (o : Fin 8),
    k.val = id.toNat % 128 → o.val = off.toNat →
    (Instr.srgr id off).opcode = 0x05#8 ∧ (Instr.srgw id off val).opcode = 0x06#8 ∧
    exec (.srgr id off) s = .next (s.setResult (.byte (s.sprite k)[o])) ∧
    ∃ t : State, exec (.srgw id off val) s = .next t ∧
      (∀ (k' : Fin 128) (o' : Fin 8), (t.sprite k')[o'] =
        if k' = k ∧ o' = o then BitVec.ofNat 8 val.toNat else (s.sprite k')[o']) ∧
      (∀ a : Nat, Memory.read t.vram a = Memory.read s.vram a) ∧
      t.vram = s.vram ∧ t.lreg = s.lreg ∧ t.pal = s.pal ∧ t.schedule = s.schedule ∧ t.result = .nothing

/-- R39, R22: every operation leaves every space but the one its row of R39's table names, and the host's schedule,
unchanged; the 13 operations of no row leave all four spaces. -/
def Obligations.OperationsWriteOnlyTheirSpace : Prop :=
  ∀ (i : Instr) (s t : State), exec i s = .next t →
    (spaceWritten i ≠ some .vram → t.vram = s.vram) ∧ (spaceWritten i ≠ some .lreg → t.lreg = s.lreg) ∧
    (spaceWritten i ≠ some .sreg → t.sreg = s.sreg) ∧ (spaceWritten i ≠ some .pal → t.pal = s.pal) ∧
    t.schedule = s.schedule

/-! ## Unpacker (41_unpacker) -/

/-- R140, R142: `UNPK` of up to 2^24 pixels returns `min(n, len(src) × per)` indices, the `i`-th from lane `i mod per`
of byte `i div per`, most significant first, and changes nothing but the result port. -/
def Obligations.UnpackReturnsLanesMostSignificantFirst : Prop :=
  ∀ (depth : BitVec 2) (len : BitVec 25) (src : List Byte) (s : State), len.toNat ≤ 2 ^ 24 →
    (Instr.unpk depth len src).opcode = 0x10#8 ∧ ∃ out : List Byte, exec (.unpk depth len src) s = .next (s.setResult (.bytes out)) ∧
      out.length = min len.toNat (src.length * (8 / 2 ^ depth.toNat)) ∧
      ∀ i < out.length, ∃ b : Byte, src[i / (8 / 2 ^ depth.toNat)]? = some b ∧
        out[i]? = some (BitVec.ofNat 8
          ((b.toNat >>> (8 - 2 ^ depth.toNat * (i % (8 / 2 ^ depth.toNat) + 1))) % 2 ^ (2 ^ depth.toNat)))

/-- R144: the six laws of the unpacker, over what `UNPK` returns. -/
def Obligations.UnpackLaws : Prop :=
  ∀ (depth : BitVec 2) (src src2 : List Byte) (n n2 : Nat) (b : Byte),
    let bpp := bppOf depth
    let per := 8 / bpp
    (∀ (len : BitVec 25) (s : State), len.toNat ≤ 2 ^ 24 →
      exec (.unpk depth len src) s = .next (s.setResult (.bytes (unpack bpp len.toNat src)))) ∧
    (∀ x ∈ unpack bpp n src, x.toNat ≤ 2 ^ bpp - 1) ∧
    (unpack bpp n src).length = min n (src.length * per) ∧
    (n ≤ n2 → unpack bpp n src = (unpack bpp n2 src).take n) ∧
    (src.length * per ≤ n →
      unpack bpp n (src ++ src2) = unpack bpp (src.length * per) src ++ unpack bpp (n - src.length * per) src2) ∧
    ((List.range per).map fun k => ((unpack bpp per [b]).getD k 0#8).toNat <<< (8 - bpp * (k + 1))).sum = b.toNat ∧
    (bpp = 1 → ∀ i < min n (src.length * 8),
      ((unpack bpp n src).getD i 0#8).toNat = ((src.getD (i / 8) 0#8).toNat >>> (7 - i % 8)) % 2)

/-- Model's choice, log 9: R140 states no result for a count above 2^24; `UNPK` then still completes, returns the free
value, and changes nothing else. -/
def Obligations.UnpackBeyondRangeReturnsTheFreeValue : Prop :=
  ∀ (depth : BitVec 2) (len : BitVec 25) (src : List Byte) (s : State), 2 ^ 24 < len.toNat →
    exec (.unpk depth len src) s = .next (s.setResult (.bytes (Config.unpkBeyondRange depth len src)))

/-! ## Layer codec (42_layer_codec) -/

/-- R150: `LDEC` returns the eleven fields, read from the seven bytes, and the derived values; nothing else changes. -/
def Obligations.LayerDecodeReadsTheSevenBytes : Prop :=
  ∀ (id : BitVec 8) (s : State) (l : Fin 2), l.val = id.toNat % 2 →
    (Instr.ldec id).opcode = 0x20#8 ∧ ∃ (p : LayerProperties) (d : LayerDerived), exec (.ldec id) s = .next (s.setResult (.layer p d)) ∧
      let B := s.layer l
      p = { colorDepthCode := B[0].toNat % 4, bitmapMode := decide (B[0].toNat / 4 % 2 = 1),
            textMode256Color := decide (B[0].toNat / 8 % 2 = 1), mapBase := B[1].toNat * 512,
            mapWidthLog2 := B[0].toNat / 16 % 4 + 5, mapHeightLog2 := B[0].toNat / 64 + 5,
            tileBase := B[2].toNat / 4 * 2048, tileWidthLog2 := B[2].toNat % 2 + 3,
            tileHeightLog2 := B[2].toNat / 2 % 2 + 3, hScroll := B[3].toNat + 256 * (B[4].toNat % 16),
            vScroll := B[5].toNat + 256 * (B[6].toNat % 16) } ∧
      d = { bitsPerPixel := 2 ^ (B[0].toNat % 4), mapWidth := 2 ^ (B[0].toNat / 16 % 4 + 5),
            mapHeight := 2 ^ (B[0].toNat / 64 + 5), tileWidthPixels := 2 ^ (B[2].toNat % 2 + 3),
            tileHeightPixels := 2 ^ (B[2].toNat / 2 % 2 + 3),
            tileBytes := 2 ^ (B[2].toNat % 2 + 3) * 2 ^ (B[2].toNat / 2 % 2 + 3) * 2 ^ (B[0].toNat % 4) / 8,
            textMode := decide (B[0].toNat % 8 = 0),
            bitmapWidthPixels := if B[2].toNat % 2 = 1 then 640 else 320,
            paletteSelector := B[4].toNat % 16 }

/-- R83 with R90: the decode of R150 is the field table's `(s + bias) × scale`, for each of the eleven fields. -/
def Obligations.LayerDecodeAgreesWithFieldTable : Prop :=
  ∀ B : LayerBlock,
    (decodeLayer B).colorDepthCode = fieldDepth.decode B ∧ (decodeLayer B).bitmapMode.toNat = fieldBitmap.decode B ∧
    (decodeLayer B).textMode256Color.toNat = fieldT256c.decode B ∧
    (decodeLayer B).mapWidthLog2 = fieldMapWidth.decode B ∧ (decodeLayer B).mapHeightLog2 = fieldMapHeight.decode B ∧
    (decodeLayer B).mapBase = fieldMapBase.decode B ∧ (decodeLayer B).tileBase = fieldTileBase.decode B ∧
    (decodeLayer B).tileWidthLog2 = fieldTileWidth.decode B ∧
    (decodeLayer B).tileHeightLog2 = fieldTileHeight.decode B ∧
    (decodeLayer B).hScroll = fieldHScroll.decode B ∧ (decodeLayer B).vScroll = fieldVScroll.decode B

/-- R33: every content of a layer block decodes to a valid record, and the unused bits do not appear in it. -/
def Obligations.EveryLayerBlockDecodesValid : Prop :=
  ∀ (B : LayerBlock) (x y : Byte),
    (decodeLayer B).valid = true ∧
    decodeLayer ((B.set 4 (B[4] ^^^ (x &&& 0xF0#8))).set 6 (B[6] ^^^ (y &&& 0xF0#8))) = decodeLayer B

/-- R152 to R156: the five encodes of layer byte 0, as the rules write them; every other byte, block, space and the
schedule is unchanged. -/
def Obligations.LayerByteZeroEncodes : Prop :=
  ∀ (id : BitVec 8) (val : BitVec 32) (s : State) (l : Fin 2), l.val = id.toNat % 2 →
    let v := val.toNat % 2 ^ 17
    let B := s.layer l
    let put := fun b : Byte => (Host.Outcome.next ((s.setLayer l (B.set 0 b)).setResult .nothing) : Host.Outcome State Fault Refusal)
    (Instr.lencDepth id val).opcode = 0x21#8 ∧ (Instr.lencBitmap id val).opcode = 0x22#8 ∧
    (Instr.lencT256c id val).opcode = 0x23#8 ∧ (Instr.lencMapw id val).opcode = 0x24#8 ∧
    (Instr.lencMaph id val).opcode = 0x25#8 ∧
    exec (.lencDepth id val) s = put ((B[0] &&& 0xFC#8) ||| BitVec.ofNat 8 (min v 3)) ∧
    exec (.lencBitmap id val) s = put ((B[0] &&& 0xFB#8) ||| BitVec.ofNat 8 (min v 1 <<< 2)) ∧
    exec (.lencT256c id val) s = put ((B[0] &&& 0xF7#8) ||| BitVec.ofNat 8 (min v 1 <<< 3)) ∧
    exec (.lencMapw id val) s = put ((B[0] &&& 0xCF#8) ||| BitVec.ofNat 8 ((max 5 (min v 8) - 5) <<< 4)) ∧
    exec (.lencMaph id val) s = put ((B[0] &&& 0x3F#8) ||| BitVec.ofNat 8 ((max 5 (min v 8) - 5) <<< 6))

/-- R157 to R160: the encodes of layer bytes 1 and 2, as the rules write them; nothing else is written. -/
def Obligations.LayerBaseAndTileSizeEncodes : Prop :=
  ∀ (id : BitVec 8) (val : BitVec 32) (s : State) (l : Fin 2), l.val = id.toNat % 2 →
    let v := val.toNat % 2 ^ 17
    let B := s.layer l
    let put := fun C : LayerBlock => (Host.Outcome.next ((s.setLayer l C).setResult .nothing) : Host.Outcome State Fault Refusal)
    (Instr.lencMapbase id val).opcode = 0x26#8 ∧ (Instr.lencTilebase id val).opcode = 0x27#8 ∧
    (Instr.lencTilew id val).opcode = 0x28#8 ∧ (Instr.lencTileh id val).opcode = 0x29#8 ∧
    exec (.lencMapbase id val) s = put (B.set 1 (BitVec.ofNat 8 (min v 0x1FE00 >>> 9))) ∧
    exec (.lencTilebase id val) s =
      put (B.set 2 ((B[2] &&& 0x03#8) ||| (BitVec.ofNat 8 ((min v 0x1F800 >>> 11) <<< 2) &&& 0xFC#8))) ∧
    exec (.lencTilew id val) s = put (B.set 2 ((B[2] &&& 0xFE#8) ||| BitVec.ofNat 8 (max 3 (min v 4) - 3))) ∧
    exec (.lencTileh id val) s = put (B.set 2 ((B[2] &&& 0xFD#8) ||| BitVec.ofNat 8 ((max 3 (min v 4) - 3) <<< 1)))

/-- R161, R162: the two-byte scroll encodes write both bytes at once and keep the unused nibble; nothing else is
written. -/
def Obligations.LayerScrollEncodes : Prop :=
  ∀ (id : BitVec 8) (val : BitVec 32) (s : State) (l : Fin 2), l.val = id.toNat % 2 →
    let p := min (val.toNat % 2 ^ 17) 4095
    let B := s.layer l
    (Instr.lencHscroll id val).opcode = 0x2A#8 ∧ (Instr.lencVscroll id val).opcode = 0x2B#8 ∧
    exec (.lencHscroll id val) s = .next ((s.setLayer l ((B.set 3 (BitVec.ofNat 8 p)).set 4
      ((B[4] &&& 0xF0#8) ||| BitVec.ofNat 8 (p / 256)))).setResult .nothing) ∧
    exec (.lencVscroll id val) s = .next ((s.setLayer l ((B.set 5 (BitVec.ofNat 8 p)).set 6
      ((B[6] &&& 0xF0#8) ||| BitVec.ofNat 8 (p / 256)))).setResult .nothing)

/-- R164: every layer encode completes, sets its own property to the clamped, aligned value, and leaves the decoded
value of every other property, every unused bit, the other layer and every other space unchanged; encodes of different
fields commute, and of two encodes of one field the last wins. -/
def Obligations.LayerEncodeSetsOnePropertyOnly : Prop :=
  ∀ (f : LayerFieldId) (id : BitVec 8) (val : BitVec 32) (s : State) (l : Fin 2), l.val = id.toNat % 2 →
    (∃ t : State, exec (encodeLayerOp f id val) s = .next t ∧
      decodeLayer (t.layer l) = f.update (val.toNat % 2 ^ 17) (decodeLayer (s.layer l)) ∧
      (t.layer l)[4] &&& 0xF0#8 = (s.layer l)[4] &&& 0xF0#8 ∧ (t.layer l)[6] &&& 0xF0#8 = (s.layer l)[6] &&& 0xF0#8 ∧
      (∀ l' : Fin 2, l' ≠ l → t.layer l' = s.layer l') ∧
      t.vram = s.vram ∧ t.sreg = s.sreg ∧ t.pal = s.pal ∧ t.schedule = s.schedule ∧ t.result = .nothing) ∧
    (∀ (g : LayerFieldId) (w : BitVec 32),
      (f ≠ g → runOps [encodeLayerOp f id val, encodeLayerOp g id w] s =
        runOps [encodeLayerOp g id w, encodeLayerOp f id val] s) ∧
      runOps [encodeLayerOp f id val, encodeLayerOp f id w] s = runOps [encodeLayerOp f id w] s)

/-- R163, round trip: from every starting content, after `LENCALL l, P` the decode of layer `l` returns exactly `P` for
a valid `P`, its clamped, aligned image for any `P` the operands can carry, and the unused bits keep their values. -/
def Obligations.LayerRoundTrip : Prop :=
  ∀ (id : BitVec 8) (P : LayerProperties) (s : State) (l : Fin 2), l.val = id.toNat % 2 →
    ∃ t : State, runOps (lencall id P) s = .next t ∧
      (P.valid = true → exec (.ldec id) t = .next (t.setResult (.layer P (deriveLayer P)))) ∧
      (P.fits → exec (.ldec id) t = .next (t.setResult (.layer P.image (deriveLayer P.image)))) ∧
      (t.layer l)[4] &&& 0xF0#8 = (s.layer l)[4] &&& 0xF0#8 ∧ (t.layer l)[6] &&& 0xF0#8 = (s.layer l)[6] &&& 0xF0#8

/-! ## Sprite codec (43_sprite_codec) -/

/-- R180: `SDEC` returns the eleven fields, read from the eight bytes, and the derived values; nothing else changes. -/
def Obligations.SpriteDecodeReadsTheEightBytes : Prop :=
  ∀ (id : BitVec 8) (s : State) (k : Fin 128), k.val = id.toNat % 128 →
    (Instr.sdec id).opcode = 0x30#8 ∧ ∃ (p : SpriteProperties) (d : SpriteDerived), exec (.sdec id) s = .next (s.setResult (.sprite p d)) ∧
      let B := s.sprite k
      p = { address := B[0].toNat * 32 + B[1].toNat % 16 * 8192, colorMode := decide (128 ≤ B[1].toNat),
            x := B[2].toNat + 256 * (B[3].toNat % 4), y := B[4].toNat + 256 * (B[5].toNat % 4),
            hFlip := decide (B[6].toNat % 2 = 1), vFlip := decide (B[6].toNat / 2 % 2 = 1),
            zDepth := B[6].toNat / 4 % 4, collisionMask := B[6].toNat / 16,
            paletteOffset := B[7].toNat % 16 * 16, widthLog2 := B[7].toNat / 16 % 4 + 3,
            heightLog2 := B[7].toNat / 64 + 3 } ∧
      d = { bitsPerPixel := if 128 ≤ B[1].toNat then 8 else 4, widthPixels := 2 ^ (B[7].toNat / 16 % 4 + 3),
            heightPixels := 2 ^ (B[7].toNat / 64 + 3),
            pixelCount := 2 ^ (B[7].toNat / 16 % 4 + B[7].toNat / 64 + 6),
            dataBytes := 2 ^ (B[7].toNat / 16 % 4 + B[7].toNat / 64 + 6) * (if 128 ≤ B[1].toNat then 8 else 4) / 8 }

/-- R83 with R96: the decode of R180 is the field table's `(s + bias) × scale`, for each of the eleven fields. -/
def Obligations.SpriteDecodeAgreesWithFieldTable : Prop :=
  ∀ B : SpriteBlock,
    (decodeSprite B).address = fieldAddress.decode B ∧ (decodeSprite B).colorMode.toNat = fieldColorMode.decode B ∧
    (decodeSprite B).x = fieldX.decode B ∧ (decodeSprite B).y = fieldY.decode B ∧
    (decodeSprite B).hFlip.toNat = fieldHFlip.decode B ∧ (decodeSprite B).vFlip.toNat = fieldVFlip.decode B ∧
    (decodeSprite B).zDepth = fieldZDepth.decode B ∧ (decodeSprite B).collisionMask = fieldCollision.decode B ∧
    (decodeSprite B).paletteOffset = fieldPaletteOffset.decode B ∧
    (decodeSprite B).widthLog2 = fieldWidth.decode B ∧ (decodeSprite B).heightLog2 = fieldHeight.decode B

/-- R36: every content of a sprite block decodes to a valid record, and the unused bits do not appear in it. -/
def Obligations.EverySpriteBlockDecodesValid : Prop :=
  ∀ (B : SpriteBlock) (x y z : Byte),
    (decodeSprite B).valid = true ∧
    decodeSprite (((B.set 1 (B[1] ^^^ (x &&& 0x70#8))).set 3 (B[3] ^^^ (y &&& 0xFC#8))).set 5
      (B[5] ^^^ (z &&& 0xFC#8))) = decodeSprite B

/-- R182 to R185: the encodes of sprite bytes 0 to 5, as the rules write them; nothing else is written. -/
def Obligations.SpriteAddressAndPositionEncodes : Prop :=
  ∀ (id : BitVec 8) (val : BitVec 32) (s : State) (k : Fin 128), k.val = id.toNat % 128 →
    let v := val.toNat % 2 ^ 17
    let st := min v 0x1FFE0 / 32
    let p := min v 1023
    let B := s.sprite k
    let put := fun C : SpriteBlock => (Host.Outcome.next ((s.setSprite k C).setResult .nothing) : Host.Outcome State Fault Refusal)
    (Instr.sencAddr id val).opcode = 0x31#8 ∧ (Instr.sencMode id val).opcode = 0x32#8 ∧
    (Instr.sencX id val).opcode = 0x33#8 ∧ (Instr.sencY id val).opcode = 0x34#8 ∧
    exec (.sencAddr id val) s =
      put ((B.set 0 (BitVec.ofNat 8 st)).set 1 ((B[1] &&& 0xF0#8) ||| BitVec.ofNat 8 (st / 256))) ∧
    exec (.sencMode id val) s = put (B.set 1 ((B[1] &&& 0x7F#8) ||| BitVec.ofNat 8 (min v 1 <<< 7))) ∧
    exec (.sencX id val) s =
      put ((B.set 2 (BitVec.ofNat 8 p)).set 3 ((B[3] &&& 0xFC#8) ||| BitVec.ofNat 8 (p / 256))) ∧
    exec (.sencY id val) s =
      put ((B.set 4 (BitVec.ofNat 8 p)).set 5 ((B[5] &&& 0xFC#8) ||| BitVec.ofNat 8 (p / 256)))

/-- R186 to R189: the encodes of sprite byte 6, as the rules write them; nothing else is written. -/
def Obligations.SpriteByteSixEncodes : Prop :=
  ∀ (id : BitVec 8) (val : BitVec 32) (s : State) (k : Fin 128), k.val = id.toNat % 128 →
    let v := val.toNat % 2 ^ 17
    let B := s.sprite k
    let put := fun b : Byte => (Host.Outcome.next ((s.setSprite k (B.set 6 b)).setResult .nothing) : Host.Outcome State Fault Refusal)
    (Instr.sencHflip id val).opcode = 0x35#8 ∧ (Instr.sencVflip id val).opcode = 0x36#8 ∧
    (Instr.sencZdepth id val).opcode = 0x37#8 ∧ (Instr.sencColl id val).opcode = 0x38#8 ∧
    exec (.sencHflip id val) s = put ((B[6] &&& 0xFE#8) ||| BitVec.ofNat 8 (min v 1)) ∧
    exec (.sencVflip id val) s = put ((B[6] &&& 0xFD#8) ||| BitVec.ofNat 8 (min v 1 <<< 1)) ∧
    exec (.sencZdepth id val) s = put ((B[6] &&& 0xF3#8) ||| BitVec.ofNat 8 (min v 3 <<< 2)) ∧
    exec (.sencColl id val) s = put ((B[6] &&& 0x0F#8) ||| BitVec.ofNat 8 (min v 15 <<< 4))

/-- R190 to R192: the encodes of sprite byte 7, as the rules write them; nothing else is written. -/
def Obligations.SpriteByteSevenEncodes : Prop :=
  ∀ (id : BitVec 8) (val : BitVec 32) (s : State) (k : Fin 128), k.val = id.toNat % 128 →
    let v := val.toNat % 2 ^ 17
    let B := s.sprite k
    let put := fun b : Byte => (Host.Outcome.next ((s.setSprite k (B.set 7 b)).setResult .nothing) : Host.Outcome State Fault Refusal)
    (Instr.sencPaloff id val).opcode = 0x39#8 ∧ (Instr.sencWidth id val).opcode = 0x3A#8 ∧
    (Instr.sencHeight id val).opcode = 0x3B#8 ∧
    exec (.sencPaloff id val) s = put ((B[7] &&& 0xF0#8) ||| BitVec.ofNat 8 (min v 240 / 16)) ∧
    exec (.sencWidth id val) s = put ((B[7] &&& 0xCF#8) ||| BitVec.ofNat 8 ((max 3 (min v 6) - 3) <<< 4)) ∧
    exec (.sencHeight id val) s = put ((B[7] &&& 0x3F#8) ||| BitVec.ofNat 8 ((max 3 (min v 6) - 3) <<< 6))

/-- R194: every sprite encode completes, sets its own property to the clamped, aligned value, and leaves the decoded
value of every other property, every unused bit, every other sprite and every other space unchanged; encodes of
different fields commute. -/
def Obligations.SpriteEncodeSetsOnePropertyOnly : Prop :=
  ∀ (f : SpriteFieldId) (id : BitVec 8) (val : BitVec 32) (s : State) (k : Fin 128), k.val = id.toNat % 128 →
    (∃ t : State, exec (encodeSpriteOp f id val) s = .next t ∧
      decodeSprite (t.sprite k) = f.update (val.toNat % 2 ^ 17) (decodeSprite (s.sprite k)) ∧
      (t.sprite k)[1] &&& 0x70#8 = (s.sprite k)[1] &&& 0x70#8 ∧ (t.sprite k)[3] &&& 0xFC#8 = (s.sprite k)[3] &&& 0xFC#8 ∧
      (t.sprite k)[5] &&& 0xFC#8 = (s.sprite k)[5] &&& 0xFC#8 ∧
      (∀ k' : Fin 128, k' ≠ k → t.sprite k' = s.sprite k') ∧
      t.vram = s.vram ∧ t.lreg = s.lreg ∧ t.pal = s.pal ∧ t.schedule = s.schedule ∧ t.result = .nothing) ∧
    (∀ (g : SpriteFieldId) (w : BitVec 32), f ≠ g → runOps [encodeSpriteOp f id val, encodeSpriteOp g id w] s =
      runOps [encodeSpriteOp g id w, encodeSpriteOp f id val] s)

/-- R193, round trip: from every starting content, after `SENCALL s, P` the decode of sprite `s` returns exactly `P`
for a valid `P`, its clamped, aligned image for any `P` the operands can carry, and the unused bits keep their
values. -/
def Obligations.SpriteRoundTrip : Prop :=
  ∀ (id : BitVec 8) (P : SpriteProperties) (s : State) (k : Fin 128), k.val = id.toNat % 128 →
    ∃ t : State, runOps (sencall id P) s = .next t ∧
      (P.valid = true → exec (.sdec id) t = .next (t.setResult (.sprite P (deriveSprite P)))) ∧
      (P.fits → exec (.sdec id) t = .next (t.setResult (.sprite P.image (deriveSprite P.image)))) ∧
      (t.sprite k)[1] &&& 0x70#8 = (s.sprite k)[1] &&& 0x70#8 ∧ (t.sprite k)[3] &&& 0xFC#8 = (s.sprite k)[3] &&& 0xFC#8 ∧
      (t.sprite k)[5] &&& 0xFC#8 = (s.sprite k)[5] &&& 0xFC#8

/-! ## Layer compositor (44_layer_compositor) -/

/-- R212: the palette offset function is 16 times the selector on indices 1 to 15, nothing elsewhere, and never
exceeds 255. -/
def Obligations.PaletteOffsetQuirk : Prop :=
  ∀ idx q : Nat, idx ≤ 255 → q ≤ 15 →
    (1 ≤ idx ∧ idx ≤ 15 → poff idx q = idx + 16 * q) ∧ (idx = 0 ∨ 16 ≤ idx → poff idx q = idx) ∧ poff idx q ≤ 255

/-- R214 to R221: in tile mode `RLAYER` completes, changes nothing but the result port, and returns the whole map, its
sizes within the stated ranges, the pixel at position (`tx`, `ty`) of cell (`cx`, `cy`) being the expansion of the palette cell the rules compute. -/
def Obligations.TileModeRendersEveryCell : Prop :=
  ∀ (id : BitVec 8) (s : State) (l : Fin 2), l.val = id.toNat % 2 →
    let p := decodeLayer (s.layer l)
    let tw := 2 ^ p.tileWidthLog2
    let th := 2 ^ p.tileHeightLog2
    p.bitmapMode = false →
    ∃ buf : PixelBuffer, exec (.rlayer id) s = .next (s.setResult (.pixels buf)) ∧
      (tw = 8 ∨ tw = 16) ∧ (th = 8 ∨ th = 16) ∧
      32 ≤ 2 ^ p.mapWidthLog2 ∧ 2 ^ p.mapWidthLog2 ≤ 256 ∧ 32 ≤ 2 ^ p.mapHeightLog2 ∧ 2 ^ p.mapHeightLog2 ≤ 256 ∧
      8 ≤ tw * th * 2 ^ p.colorDepthCode / 8 ∧ tw * th * 2 ^ p.colorDepthCode / 8 ≤ 256 ∧
      buf.width = tw * 2 ^ p.mapWidthLog2 ∧ buf.height = th * 2 ^ p.mapHeightLog2 ∧
      buf.data.length = buf.width * buf.height ∧ 65536 ≤ buf.data.length ∧ buf.data.length ≤ 2 ^ 24 ∧
      ∀ cx < 2 ^ p.mapWidthLog2, ∀ cy < 2 ^ p.mapHeightLog2, ∀ tx < tw, ∀ ty < th,
        (buf.data[(cy * th + ty) * buf.width + (cx * tw + tx)]? : Option Colour) =
          s.pal[tileColourIndex s.vram p cx cy tx ty]?.map expand ∧
        tileColourIndex s.vram p cx cy tx ty < 256

/-- R213: in bitmap mode `RLAYER` completes, changes nothing but the result port, and returns `bitmapWidthPixels` by
`BITMAP_HEIGHT` pixels of the wrapped linear run from `tileBase`, with the quirk at every depth. -/
def Obligations.BitmapModeRendersTheLinearRun : Prop :=
  ∀ (id : BitVec 8) (s : State) (l : Fin 2), l.val = id.toNat % 2 →
    let p := decodeLayer (s.layer l)
    p.bitmapMode = true →
    ∃ buf : PixelBuffer, exec (.rlayer id) s = .next (s.setResult (.pixels buf)) ∧
      buf.width = (if p.tileWidthLog2 = 4 then 640 else 320) ∧ buf.height = Config.bitmapHeight ∧
      buf.data.length = buf.width * buf.height ∧
      ∀ i < buf.width * buf.height,
        (buf.data[i]? : Option Colour) = s.pal[poff (packedIndex s.vram p.tileBase (2 ^ p.colorDepthCode) i)
          ((s.layer l)[4].toNat % 16)]?.map expand ∧
        poff (packedIndex s.vram p.tileBase (2 ^ p.colorDepthCode) i) ((s.layer l)[4].toNat % 16) < 256

/-- R224: `RLAYER` is total: whatever the memories hold, it returns a buffer of the size its mode states (R213, R214),
within the stated bounds, every element of which is one of the 256 expanded colours. -/
def Obligations.LayerRenderIsTotal : Prop :=
  ∀ (id : BitVec 8) (s : State) (l : Fin 2), l.val = id.toNat % 2 →
    let B := s.layer l
    (Instr.rlayer id).opcode = 0x40#8 ∧ ∃ buf : PixelBuffer,
      exec (.rlayer id) s = .next (s.setResult (.pixels buf)) ∧
      buf.data.length = buf.width * buf.height ∧
      (∀ c ∈ buf.data, ∃ i : Fin 256, c = expand (s.palCell i)) ∧
      (B[0].toNat / 4 % 2 = 1 →
        buf.width = (if B[2].toNat % 2 = 1 then 640 else 320) ∧ buf.height = Config.bitmapHeight ∧
        buf.width * buf.height ≤ 640 * Config.bitmapHeight) ∧
      (B[0].toNat / 4 % 2 = 0 →
        buf.width = 2 ^ (B[2].toNat % 2 + 3) * 2 ^ (B[0].toNat / 16 % 4 + 5) ∧
        buf.height = 2 ^ (B[2].toNat / 2 % 2 + 3) * 2 ^ (B[0].toNat / 64 + 5) ∧
        65536 ≤ buf.width * buf.height ∧ buf.width * buf.height ≤ 2 ^ 24)

/-- R225: the source's end-to-end property: tile 1 of index 3 under palette 2 at cell (0,0) renders as an 8 by 8 block
of the expansion of palette cell 35 at buffer position (0,0) of a 256 by 256 buffer. -/
def Obligations.EndToEndTileBlock : Prop :=
  ∀ (id : BitVec 8) (s : State) (l : Fin 2), l.val = id.toNat % 2 →
    let p := decodeLayer (s.layer l)
    p.mapWidthLog2 = 5 → p.mapHeightLog2 = 5 → p.tileWidthLog2 = 3 → p.tileHeightLog2 = 3 → p.colorDepthCode = 2 →
    p.bitmapMode = false →
    Memory.read s.vram (p.mapBase % 0x20000) = 0x01#8 → Memory.read s.vram ((p.mapBase + 1) % 0x20000) = 0x20#8 →
    (∀ j < 32, Memory.read s.vram ((p.tileBase + 32 + j) % 0x20000) = 0x33#8) →
    ∃ buf : PixelBuffer, exec (.rlayer id) s = .next (s.setResult (.pixels buf)) ∧
      buf.width = 256 ∧ buf.height = 256 ∧
      ∀ X < 8, ∀ Y < 8, buf.data[Y * 256 + X]? = some (expand (s.palCell 35))

/-- R222, and the corner cases of R210: in tile mode the result does not depend on the scroll bytes; in bitmap mode it
depends only on the depth, the tile base, the tile width bit and the selector nibble. -/
def Obligations.LayerRenderIgnoresScrollAndUnusedFields : Prop :=
  ∀ (id : BitVec 8) (s : State) (l : Fin 2) (C : LayerBlock), l.val = id.toNat % 2 →
    let p := decodeLayer (s.layer l)
    let p' := decodeLayer C
    (p.bitmapMode = false → p' = { p with hScroll := p'.hScroll, vScroll := p'.vScroll } →
      ∃ buf : PixelBuffer, exec (.rlayer id) s = .next (s.setResult (.pixels buf)) ∧
        exec (.rlayer id) (s.setLayer l C) = .next ((s.setLayer l C).setResult (.pixels buf))) ∧
    (p.bitmapMode = true → p'.bitmapMode = true → p'.colorDepthCode = p.colorDepthCode → p'.tileBase = p.tileBase →
      p'.tileWidthLog2 = p.tileWidthLog2 → C[4].toNat % 16 = (s.layer l)[4].toNat % 16 →
      ∃ buf : PixelBuffer, exec (.rlayer id) s = .next (s.setResult (.pixels buf)) ∧
        exec (.rlayer id) (s.setLayer l C) = .next ((s.setLayer l C).setResult (.pixels buf)))

/-! ## Sprite compositor (45_sprite_compositor) -/

/-- R240, R241: `RSPRITE` completes, changes nothing but the result port, and returns a width by height buffer whose
pixel `i` is the packed index at `address`, plus the palette offset, mod 256. -/
def Obligations.SpriteRendersWithUnconditionalOffset : Prop :=
  ∀ (id : BitVec 8) (s : State) (k : Fin 128), k.val = id.toNat % 128 →
    let p := decodeSprite (s.sprite k)
    (Instr.rsprite id).opcode = 0x50#8 ∧ ∃ buf : PixelBuffer, exec (.rsprite id) s = .next (s.setResult (.pixels buf)) ∧
      buf.width = 2 ^ p.widthLog2 ∧ buf.height = 2 ^ p.heightLog2 ∧ buf.data.length = buf.width * buf.height ∧
      ∀ i < buf.width * buf.height, (buf.data[i]? : Option Colour) =
        s.pal[(packedIndex s.vram p.address (if p.colorMode then 8 else 4) i + p.paletteOffset) % 256]?.map expand

/-- R242, R243: the sprite buffer is the same whatever bytes 2 to 6 hold (position, flips, depth, collision mask) and
whatever the layer registers and the other sprites hold. -/
def Obligations.SpriteRenderIgnoresFlipsAndPosition : Prop :=
  ∀ (id : BitVec 8) (s s' : State) (k : Fin 128), k.val = id.toNat % 128 →
    s'.vram = s.vram → s'.pal = s.pal → (s'.sprite k)[0] = (s.sprite k)[0] → (s'.sprite k)[1] = (s.sprite k)[1] →
    (s'.sprite k)[7] = (s.sprite k)[7] →
    ∃ buf : PixelBuffer, exec (.rsprite id) s = .next (s.setResult (.pixels buf)) ∧
      exec (.rsprite id) s' = .next (s'.setResult (.pixels buf))

/-! ## Palette (46_palette) -/

/-- R250, R251: `PEXP` and `PQNT` as numbers; nothing but the result port changes. -/
def Obligations.ExpandAndQuantizeValues : Prop :=
  ∀ (val : BitVec 32) (s : State), (Instr.pexp val).opcode = 0x60#8 ∧ (Instr.pqnt val).opcode = 0x61#8 ∧
    exec (.pexp val) s = .next (s.setResult (.colour (BitVec.ofNat 32
      (val.toNat / 256 % 16 * 17 * 2 ^ 24 + val.toNat / 16 % 16 * 17 * 2 ^ 16 + val.toNat % 16 * 17 * 2 ^ 8 + 255)))) ∧
    exec (.pqnt val) s = .next (s.setResult (.cell (BitVec.ofNat 12
      (val.toNat / 2 ^ 28 * 256 + val.toNat / 2 ^ 20 % 16 * 16 + val.toNat / 2 ^ 12 % 16))))

/-- R255: quantize undoes expand; expand undoes quantize exactly on opaque colours whose channels have equal nibbles;
both compositions are idempotent. -/
def Obligations.PaletteConversionLaws : Prop :=
  (∀ c : Cell12, quantize (expand c) = c) ∧
  (∀ p : Colour, expand (quantize p) = p ↔
    p.toNat / 2 ^ 28 = p.toNat / 2 ^ 24 % 16 ∧ p.toNat / 2 ^ 20 % 16 = p.toNat / 2 ^ 16 % 16 ∧
    p.toNat / 2 ^ 12 % 16 = p.toNat / 2 ^ 8 % 16 ∧ p.toNat % 256 = 0xFF) ∧
  (∀ p : Colour, expand (quantize (expand (quantize p))) = expand (quantize p)) ∧
  (∀ c : Cell12, expand (quantize (expand c)) = expand c)

/-- R252: `PGET` returns the 256 expansions and changes nothing but the result port. -/
def Obligations.PaletteReadReturnsEveryExpansion : Prop :=
  ∀ s : State, Instr.pget.opcode = 0x62#8 ∧ ∃ cs : Vector Colour 256, exec .pget s = .next (s.setResult (.colours cs)) ∧
    ∀ i : Fin 256, cs[i] = expand (s.palCell i)

/-- R253, R254, R256: `PSETC` stores `val[11:0]` and `PSETQ` stores `quantize(val)` in one cell and nothing else, and
`PGET` right after returns that cell's expansion and the old one of every other cell. -/
def Obligations.PaletteWritesOneCellAndItsExpansion : Prop :=
  ∀ (id : BitVec 8) (val : BitVec 32) (s : State) (k : Fin 256) (c : Cell12) (i : Instr), k.val = id.toNat →
    (i = .psetc id val ∧ c = BitVec.ofNat 12 val.toNat ∨ i = .psetq id val ∧ c = quantize val) →
    (Instr.psetc id val).opcode = 0x63#8 ∧ (Instr.psetq id val).opcode = 0x64#8 ∧ ∃ (t : State) (cs : Vector Colour 256), exec i s = .next t ∧
      (∀ j : Fin 256, t.palCell j = if j = k then c else s.palCell j) ∧
      t.vram = s.vram ∧ t.lreg = s.lreg ∧ t.sreg = s.sreg ∧ t.schedule = s.schedule ∧ t.result = .nothing ∧
      exec .pget t = .next (t.setResult (.colours cs)) ∧
      (∀ j : Fin 256, cs[j] = if j = k then expand c else expand (s.palCell j))

/-- R108: the palette "set" edit: `PSETQ i, rgba` is `PQNT rgba -> c` and then `PSETC i, c`. -/
def Obligations.PaletteSetIsQuantizeThenStore : Prop :=
  ∀ (id : BitVec 8) (rgba : BitVec 32) (s : State), ∃ c : Cell12,
    exec (.pqnt rgba) s = .next (s.setResult (.cell c)) ∧
    runOps (pset id rgba) s = runOps [.pqnt rgba, .psetc id (BitVec.ofNat 32 c.toNat)] s

/-! ## Region preview (47_region_preview) -/

/-- R270 to R272: `RREGION` from video memory completes, changes nothing but the result port, and returns the clamped
view of the wrapped linear run with the quirk; from every other source it is refused. -/
def Obligations.RegionPreviewRendersTheLinearRun : Prop :=
  ∀ (id : BitVec 8) (addr : Offset) (w h : BitVec 13) (depth : BitVec 2) (sel : BitVec 4) (s : State),
    (Instr.rregion id addr w h depth sel).opcode = 0x41#8 ∧
    (id.toNat % 4 = 0 → ∃ buf : PixelBuffer,
      exec (.rregion id addr w h depth sel) s = .next (s.setResult (.pixels buf)) ∧
      buf.width = max 1 (min w.toNat 4096) ∧ buf.height = max 1 (min h.toNat 4096) ∧
      buf.data.length = buf.width * buf.height ∧
      ∀ i < buf.width * buf.height, (buf.data[i]? : Option Colour) =
        s.pal[poff (packedIndex s.vram addr.toNat (2 ^ depth.toNat) i) sel.toNat]?.map expand ∧
        poff (packedIndex s.vram addr.toNat (2 ^ depth.toNat) i) sel.toNat < 256) ∧
    (id.toNat % 4 ≠ 0 → exec (.rregion id addr w h depth sel) s = .refused .regionSourceUnknown)

/-- R270, "This is `BitmapRender`": a bitmap layer and the region preview with the layer's own values for operands
show the same pixels wherever both have one, whatever view height is asked for, and the same buffer exactly when the
clamped height is `BITMAP_HEIGHT`. -/
def Obligations.RegionPreviewShowsTheBitmapLayer : Prop :=
  ∀ (id : BitVec 8) (h : BitVec 13) (s : State) (l : Fin 2), l.val = id.toNat % 2 →
    let p := decodeLayer (s.layer l)
    p.bitmapMode = true →
    ∃ big view : PixelBuffer, exec (.rlayer id) s = .next (s.setResult (.pixels big)) ∧
      exec (.rregion 0#8 (BitVec.ofNat 17 p.tileBase) (BitVec.ofNat 13 (deriveLayer p).bitmapWidthPixels) h
        (BitVec.ofNat 2 p.colorDepthCode) (BitVec.ofNat 4 (deriveLayer p).paletteSelector)) s =
        .next (s.setResult (.pixels view)) ∧
      view.width = big.width ∧
      (∀ i < min big.data.length view.data.length, view.data[i]? = big.data[i]?) ∧
      (view = big ↔ max 1 (min h.toNat 4096) = big.height)

/-! ## Commands and encodings (30_encoding) -/

/-- Decode and encode agree at every operand value: the bundle of an operation and its byte list decode to it. The
positions of the ports in the bundle are the model's own (log 3). -/
def Obligations.DecodeOfEncodeIsTheOperation : Prop :=
  ∀ i : Instr, decodeBundle (encodeBundle i) (encodeSrc i) = .ok i

/-- R81: no bit of a port is lost or invented on the way through the bundle, in either direction (the positions are
the model's own, log 3). -/
def Obligations.BundleHoldsEveryPortBit : Prop :=
  (∀ c : Command, Command.ofBundle c.toBundle c.src = c) ∧
  (∀ (b : BitVec bundleBits) (src : List Byte), (Command.ofBundle b src).toBundle = b)

/-- R105: exactly the 216 opcodes outside the operation map are reserved: a command with one is refused by name, and
every other opcode decodes to an operation. -/
def Obligations.ReservedOpcodesSpellNoOperation : Prop :=
  ((List.range 256).countP reservedOpcode = 216) ∧
  ∀ (c : Command) (s : State) (rest : List HostAction), s.schedule = .command c :: rest →
    (reservedOpcode c.op.toNat = true → step s = .refused (.reservedOpcode c.op)) ∧
    (reservedOpcode c.op.toNat = false → ∃ i, decode c = .ok i ∧ step s = exec i (s.setSchedule rest))

/-- R82, R80: the whole opcode byte selects the row of the operation map, and the row the ports; the codec units have
opcode 0x20 or 0x30 plus the field id, and their decode is function 0. -/
def Obligations.OperationMapSelectsByTheOpcode : Prop :=
  (∀ c : Command,
    (c.op = 0x00#8 → decode c = .ok (.rdb c.addr)) ∧
    (c.op = 0x01#8 → decode c = .ok (.rdr c.addr c.len)) ∧
    (c.op = 0x02#8 → decode c = .ok (.wrb c.addr c.val)) ∧
    (c.op = 0x03#8 → decode c = .ok (.lrgr c.id c.off)) ∧
    (c.op = 0x04#8 → decode c = .ok (.lrgw c.id c.off c.val)) ∧
    (c.op = 0x05#8 → decode c = .ok (.srgr c.id c.off)) ∧
    (c.op = 0x06#8 → decode c = .ok (.srgw c.id c.off c.val)) ∧
    (c.op = 0x10#8 → decode c = .ok (.unpk c.depth c.len c.src)) ∧
    (c.op = 0x20#8 → decode c = .ok (.ldec c.id)) ∧
    (c.op = 0x21#8 → decode c = .ok (.lencDepth c.id c.val)) ∧
    (c.op = 0x22#8 → decode c = .ok (.lencBitmap c.id c.val)) ∧
    (c.op = 0x23#8 → decode c = .ok (.lencT256c c.id c.val)) ∧
    (c.op = 0x24#8 → decode c = .ok (.lencMapw c.id c.val)) ∧
    (c.op = 0x25#8 → decode c = .ok (.lencMaph c.id c.val)) ∧
    (c.op = 0x26#8 → decode c = .ok (.lencMapbase c.id c.val)) ∧
    (c.op = 0x27#8 → decode c = .ok (.lencTilebase c.id c.val)) ∧
    (c.op = 0x28#8 → decode c = .ok (.lencTilew c.id c.val)) ∧
    (c.op = 0x29#8 → decode c = .ok (.lencTileh c.id c.val)) ∧
    (c.op = 0x2A#8 → decode c = .ok (.lencHscroll c.id c.val)) ∧
    (c.op = 0x2B#8 → decode c = .ok (.lencVscroll c.id c.val)) ∧
    (c.op = 0x30#8 → decode c = .ok (.sdec c.id)) ∧
    (c.op = 0x31#8 → decode c = .ok (.sencAddr c.id c.val)) ∧
    (c.op = 0x32#8 → decode c = .ok (.sencMode c.id c.val)) ∧
    (c.op = 0x33#8 → decode c = .ok (.sencX c.id c.val)) ∧
    (c.op = 0x34#8 → decode c = .ok (.sencY c.id c.val)) ∧
    (c.op = 0x35#8 → decode c = .ok (.sencHflip c.id c.val)) ∧
    (c.op = 0x36#8 → decode c = .ok (.sencVflip c.id c.val)) ∧
    (c.op = 0x37#8 → decode c = .ok (.sencZdepth c.id c.val)) ∧
    (c.op = 0x38#8 → decode c = .ok (.sencColl c.id c.val)) ∧
    (c.op = 0x39#8 → decode c = .ok (.sencPaloff c.id c.val)) ∧
    (c.op = 0x3A#8 → decode c = .ok (.sencWidth c.id c.val)) ∧
    (c.op = 0x3B#8 → decode c = .ok (.sencHeight c.id c.val)) ∧
    (c.op = 0x40#8 → decode c = .ok (.rlayer c.id)) ∧
    (c.op = 0x41#8 → decode c = .ok (.rregion c.id c.addr c.w c.h c.depth c.sel)) ∧
    (c.op = 0x50#8 → decode c = .ok (.rsprite c.id)) ∧
    (c.op = 0x60#8 → decode c = .ok (.pexp c.val)) ∧
    (c.op = 0x61#8 → decode c = .ok (.pqnt c.val)) ∧
    (c.op = 0x62#8 → decode c = .ok .pget) ∧
    (c.op = 0x63#8 → decode c = .ok (.psetc c.id c.val)) ∧
    (c.op = 0x64#8 → decode c = .ok (.psetq c.id c.val))) ∧
  ∀ (id : BitVec 8) (val : BitVec 32),
    (∀ f : LayerFieldId, (encodeLayerOp f id val).opcode.toNat = 0x20 + f.number) ∧
    (∀ f : SpriteFieldId, (encodeSpriteOp f id val).opcode.toNat = 0x30 + f.number)

/-- R81, 93 U11: the port bits an operation ignores do not matter: `id[7:1]` for layers, `id[7]` for sprites,
`id[7:2]` for the region source, and the bits of `val` above a byte, a field value or a cell. -/
def Obligations.IgnoredPortBitsDoNotMatter : Prop :=
  (∀ (id id' : BitVec 8) (off : BitVec 3) (v v' : BitVec 32) (f : LayerFieldId) (s : State),
    id.toNat % 2 = id'.toNat % 2 →
    exec (.ldec id) s = exec (.ldec id') s ∧ exec (.rlayer id) s = exec (.rlayer id') s ∧
    exec (.lrgr id off) s = exec (.lrgr id' off) s ∧
    (v.toNat % 2 ^ 8 = v'.toNat % 2 ^ 8 → exec (.lrgw id off v) s = exec (.lrgw id' off v') s) ∧
    (v.toNat % 2 ^ 17 = v'.toNat % 2 ^ 17 →
      exec (encodeLayerOp f id v) s = exec (encodeLayerOp f id' v') s)) ∧
  (∀ (id id' : BitVec 8) (off : BitVec 3) (v v' : BitVec 32) (f : SpriteFieldId) (s : State),
    id.toNat % 128 = id'.toNat % 128 →
    exec (.sdec id) s = exec (.sdec id') s ∧ exec (.rsprite id) s = exec (.rsprite id') s ∧
    exec (.srgr id off) s = exec (.srgr id' off) s ∧
    (v.toNat % 2 ^ 8 = v'.toNat % 2 ^ 8 → exec (.srgw id off v) s = exec (.srgw id' off v') s) ∧
    (v.toNat % 2 ^ 17 = v'.toNat % 2 ^ 17 →
      exec (encodeSpriteOp f id v) s = exec (encodeSpriteOp f id' v') s)) ∧
  (∀ (id id' : BitVec 8) (addr : Offset) (w h : BitVec 13) (depth : BitVec 2) (sel : BitVec 4) (s : State),
    id.toNat % 4 = id'.toNat % 4 →
    exec (.rregion id addr w h depth sel) s = exec (.rregion id' addr w h depth sel) s) ∧
  (∀ (id : BitVec 8) (addr : Offset) (v v' : BitVec 32) (s : State),
    (v.toNat % 2 ^ 8 = v'.toNat % 2 ^ 8 → exec (.wrb addr v) s = exec (.wrb addr v') s) ∧
    (v.toNat % 2 ^ 12 = v'.toNat % 2 ^ 12 →
      exec (.pexp v) s = exec (.pexp v') s ∧ exec (.psetc id v) s = exec (.psetc id v') s))

/-- Sanity: a few words written out from R82's operation map decode to what they stand for (the operand positions are
the model's bundle, log 3). -/
def Obligations.TableWordsDecode : Prop :=
  decodeTableWord 8 0x00 = some (.rdb 0) ∧ decodeTableWord 16 0xFF05 = some (.srgr 0xFF 0) ∧
  decodeTableWord 8 0x10 = some (.unpk 0 0 []) ∧ decodeTableWord 16 0x0324 = some (.lencMapw 3 0) ∧
  decodeTableWord 8 0x3B = some (.sencHeight 0 0) ∧ decodeTableWord 8 0x40 = some (.rlayer 0) ∧
  decodeTableWord 8 0x50 = some (.rsprite 0) ∧ decodeTableWord 16 0x2363 = some (.psetc 0x23 0) ∧
  decodeTableWord 8 0x07 = none ∧ decodeTableWord 8 0xFF = none

/-! ## The whole machine -/

/-- A step whose next host action is a command that spells operation `i` is `exec i` at the state with that action
taken off the schedule; the state that `withFetchWord` makes runs exactly its word's operation. -/
def Obligations.StepRunsTheDecodedOperation : Prop :=
  (∀ (s : State) (c : Command) (rest : List HostAction) (i : Instr),
    s.schedule = .command c :: rest → decode c = .ok i → step s = exec i (s.setSchedule rest)) ∧
  (∀ (s : State) (nbits w : Nat) (i : Instr),
    decodeTableWord nbits w = some i → step (s.withFetchWord nbits w) = exec i s)

/-- R11, R287: every operation whose operands its rule admits completes, in every state; the only operands that do not
complete are the `refuse` cases, each refused by its own name (a count above 2^24 for `UNPK` is none of them). -/
def Obligations.EveryAdmittedOperationCompletes : Prop :=
  ∀ (i : Instr) (s : State),
    (i.wf = true → ∃ t : State, exec i s = .next t) ∧
    (i.wf = false →
      match i with
      | .rdr _ _ => exec i s = .refused .rangeTooLong
      | .lrgr _ _ => exec i s = .refused .noSuchRegisterByte
      | .lrgw _ _ _ => exec i s = .refused .noSuchRegisterByte
      | .rregion _ _ _ _ _ _ => exec i s = .refused .regionSourceUnknown
      | .unpk _ _ _ => ∃ t : State, exec i s = .next t
      | _ => False)

/-- R38: each operation returns a result of its own kind, and what it returns and writes depends on its operands and
the four spaces alone, not on the host's schedule or on what the result port held. -/
def Obligations.OperationsReturnTheirKindOfResult : Prop :=
  ∀ (i : Instr) (s : State) (acts : List HostAction) (r : Result),
    (∀ t : State, exec i s = .next t → t.result.kind = resultKindOf i) ∧
    match exec i s with
    | .next t => exec i ((s.setSchedule acts).setResult r) = .next (t.setSchedule acts)
    | .fault x => exec i ((s.setSchedule acts).setResult r) = .fault x
    | .refused x => exec i ((s.setSchedule acts).setResult r) = .refused x

/-- R65: operations take effect one after another in issue order: a schedule of operations and host writes, one step
each, leaves the left-to-right composition of the operations with the host writes between them, and the rest of the
schedule. -/
def Obligations.StepsComposeInIssueOrder : Prop :=
  ∀ (turns : List (Instr ⊕ HostWrite)) (rest : List HostAction) (s : State),
    Host.Core.run Sys2Proof.core turns.length (s.setSchedule (turns.map turnAction ++ rest)) =
      runTurns turns (s.setSchedule rest)

/-- R41: between two operations the host may write any byte of video memory, of a layer block or of a sprite block
and any palette cell: that step changes that one place. Model's choices: it takes itself off the schedule (log 1) and
clears the result port (log 2). -/
def Obligations.HostWritesChangeOnePlace : Prop :=
  ∀ (s : State) (rest : List HostAction) (b : Byte) (c : Cell12), Memory.wf s.vram = true →
    (∀ a : Offset, ∃ t : State, step (s.setSchedule (.write (.vram a b) :: rest)) = .next t ∧
      (∀ a' : Nat, Memory.read t.vram a' = if a' = a.toNat then b else Memory.read s.vram a') ∧
      t.lreg = s.lreg ∧ t.sreg = s.sreg ∧ t.pal = s.pal ∧ t.schedule = rest ∧ t.result = .nothing) ∧
    (∀ (l : Fin 2) (o : Fin 7), ∃ t : State, step (s.setSchedule (.write (.lreg l o b) :: rest)) = .next t ∧
      (∀ (l' : Fin 2) (o' : Fin 7), (t.layer l')[o'] = if l' = l ∧ o' = o then b else (s.layer l')[o']) ∧
      t.vram = s.vram ∧ t.sreg = s.sreg ∧ t.pal = s.pal ∧ t.schedule = rest ∧ t.result = .nothing) ∧
    (∀ (k : Fin 128) (o : Fin 8), ∃ t : State, step (s.setSchedule (.write (.sreg k o b) :: rest)) = .next t ∧
      (∀ (k' : Fin 128) (o' : Fin 8), (t.sprite k')[o'] = if k' = k ∧ o' = o then b else (s.sprite k')[o']) ∧
      t.vram = s.vram ∧ t.lreg = s.lreg ∧ t.pal = s.pal ∧ t.schedule = rest ∧ t.result = .nothing) ∧
    (∀ i : Fin 256, ∃ t : State, step (s.setSchedule (.write (.pal i c) :: rest)) = .next t ∧
      (∀ j : Fin 256, t.palCell j = if j = i then c else s.palCell j) ∧
      t.vram = s.vram ∧ t.lreg = s.lreg ∧ t.sreg = s.sreg ∧ t.schedule = rest ∧ t.result = .nothing)

/-- R41: between two operations the host can replace the four spaces by arbitrary values: for every content there is a
host action whose step leaves exactly that content. Model's choices: it takes itself off the schedule (log 1) and clears
the result port (log 2). -/
def Obligations.HostCanReplaceTheFourSpaces : Prop :=
  ∀ (content : Offset → Byte) (lreg : Vector LayerBlock 2) (sreg : Vector SpriteBlock 128) (pal : Vector Cell12 256),
    ∃ w : HostWrite, ∀ (s : State) (rest : List HostAction), ∃ t : State,
      step (s.setSchedule (.write w :: rest)) = .next t ∧
      (∀ a : Offset, Memory.read t.vram a.toNat = content a) ∧
      t.lreg = lreg ∧ t.sreg = sreg ∧ t.pal = pal ∧ t.schedule = rest ∧ t.result = .nothing

/-- R287, R280: a step completes, or it refuses a command that is not legal, by the name of its `refuse` case; every
`refuse` case is refused. Model's choices: the schedule (log 1), and that a step with nothing on it, in any state, is
the idle engine, which clears the result port and changes nothing else (logs 2, 15). -/
def Obligations.StepCompletesOrRefusesByName : Prop :=
  ∀ s : State,
    ((∃ t : State, step s = .next t) ∨
      ∃ (c : Command) (rest : List HostAction) (r : Refusal), s.schedule = .command c :: rest ∧
        legalCommand c = false ∧ refuseCase c = some r ∧ step s = .refused r) ∧
    (∀ (c : Command) (rest : List HostAction) (r : Refusal), s.schedule = .command c :: rest →
      refuseCase c = some r → step s = .refused r) ∧
    (s.schedule = [] → step s = .next (s.setResult .nothing))

/-- Every step keeps the invariant: the video memory stays in canonical form, and what stands on the result port is
well formed (a buffer of exactly width × height opaque pixels, a valid record with its own derived values). -/
def Obligations.StepKeepsTheInvariant : Prop :=
  ∀ s t : State, s.Inv → step s = .next t → t.Inv

/-- The invariant holds at reset. -/
def Obligations.ResetSatisfiesTheInvariant : Prop := State.reset.Inv

/-- The invariant holds of every state a run can reach, whatever the host issues or writes. -/
def Obligations.ReachableStatesSatisfyTheInvariant : Prop := ∀ s : State, Reachable s → s.Inv

/-- R11 over whole runs: a state whose schedule holds only host writes and legal commands is safe: no number of steps
ends in a refusal or a fault. -/
def Obligations.LegalSchedulesRunSafely : Prop :=
  ∀ s : State, (∀ a ∈ s.schedule, legalAction a = true) → Safe s

/-- R300: after reset the engine is idle and holds no operand and no result, and it accepts every operation as its
first: the step that runs an admitted one completes. -/
def Obligations.ResetAcceptsEveryOperation : Prop :=
  State.reset.schedule = [] ∧ State.reset.result = .nothing ∧ step State.reset = .next State.reset ∧
  ∀ i : Instr, i.wf = true → ∃ t : State, step (State.reset.setSchedule [.command (encode i)]) = .next t

/-- Model's choice, logs 4 to 7: R42 leaves the four memories unspecified at reset; in this model they read zero. No
other statement rests on these values. -/
def Obligations.ResetMemoriesReadZero : Prop :=
  (∀ a : Nat, Memory.read State.reset.vram a = 0#8) ∧ (∀ (l : Fin 2) (o : Fin 7), (State.reset.layer l)[o] = 0#8) ∧
  (∀ (k : Fin 128) (o : Fin 8), (State.reset.sprite k)[o] = 0#8) ∧ (∀ i : Fin 256, State.reset.palCell i = 0#12)
end

