-- ==== Sys2Proof/Laws/Memory.lean ====
section
/-! SUPPORT. The laws of the video memory: read after write, and that every memory operation keeps the canonical
form. -/

namespace Sys2Proof.Machine

@[simp] theorem Memory.wf_nil : Memory.wf [] = true := rfl

/-- What the canonical form of a list with a head says. -/
theorem Memory.wf_cons (k : Nat) (b : Byte) (rest : Memory) :
    Memory.wf ((k, b) :: rest) = true ↔
      k < Config.vramSize ∧ b ≠ Memory.unwritten ∧ (∀ c ∈ rest.head?, k < c.1) ∧ Memory.wf rest = true := by
  cases rest with
  | nil => simp [Memory.wf]
  | cons c rest => obtain ⟨k', b'⟩ := c; simp [Memory.wf, and_assoc]

/-- In a canonical memory every offset of the tail lies above the head's. -/
theorem Memory.wf_lt {k : Nat} {b : Byte} {rest : Memory} (h : Memory.wf ((k, b) :: rest) = true) :
    ∀ c ∈ rest, k < c.1 := by
  induction rest generalizing k b with
  | nil => simp
  | cons c rest ih =>
    obtain ⟨k', b'⟩ := c
    obtain ⟨-, -, hk, hrest⟩ := (Memory.wf_cons _ _ _).1 h
    have hk' : k < k' := hk (k', b') (by simp)
    intro c hc
    rcases List.mem_cons.1 hc with rfl | hc
    · exact hk'
    · exact hk'.trans (ih hrest c hc)

/-- An offset below every listed one reads as unwritten. -/
theorem Memory.read_of_lt {m : Memory} {a : Nat} (h : ∀ c ∈ m, a < c.1) : Memory.read m a = Memory.unwritten := by
  induction m with
  | nil => rfl
  | cons c rest ih =>
    obtain ⟨k, b⟩ := c
    have hk : a < k := h (k, b) (by simp)
    simp only [Memory.read, if_neg (Nat.ne_of_gt hk)]
    exact ih fun c hc => h c (by simp [hc])

/-- Read after write to the same offset, and to another, in a canonical memory (20_memory R53). -/
theorem Memory.read_write {m : Memory} (hm : Memory.wf m = true) (a a' : Nat) (v : Byte) :
    Memory.read (Memory.write m a v) a' = if a = a' then v else Memory.read m a' := by
  induction m with
  | nil => by_cases hv : v = Memory.unwritten <;> simp [Memory.write, Memory.read, hv]
  | cons c rest ih =>
    obtain ⟨k, b⟩ := c
    have hlt := Memory.wf_lt hm
    have hrest : Memory.wf rest = true := ((Memory.wf_cons _ _ _).1 hm).2.2.2
    unfold Memory.write
    by_cases h1 : a < k
    · have hu : Memory.read ((k, b) :: rest) a = Memory.unwritten :=
        Memory.read_of_lt fun c hc => by
          rcases List.mem_cons.1 hc with rfl | hc
          · exact h1
          · exact h1.trans (hlt c hc)
      by_cases hv : v = Memory.unwritten
      · by_cases ha : a = a'
        · subst ha; simp [h1, hv, hu]
        · simp [h1, hv, ha]
      · by_cases ha : a = a'
        · subst ha; simp [h1, hv, Memory.read]
        · simp [h1, hv, ha, Memory.read]
    · by_cases h2 : a = k
      · subst h2
        have hu : Memory.read rest a = Memory.unwritten := Memory.read_of_lt hlt
        by_cases hv : v = Memory.unwritten
        · by_cases ha : a = a'
          · subst ha; simp [hv, hu]
          · simp [hv, ha, Memory.read]
        · by_cases ha : a = a'
          · subst ha; simp [hv, Memory.read]
          · simp [hv, ha, Memory.read]
      · simp only [if_neg h1, if_neg h2, Memory.read, ih hrest]
        by_cases hk : k = a'
        · subst hk; simp [h2]
        · simp [hk]

/-- Every offset a write lists was listed before or is the written one. -/
theorem Memory.mem_write {m : Memory} {a : Nat} {v : Byte} {c : Host.Cell} (h : c ∈ Memory.write m a v) :
    c ∈ m ∨ c.1 = a := by
  induction m with
  | nil =>
    by_cases hv : v = Memory.unwritten <;> simp [Memory.write, hv] at h
    exact .inr (by simp [h])
  | cons d rest ih =>
    obtain ⟨k, b⟩ := d
    unfold Memory.write at h
    split_ifs at h
    · exact .inl h
    · rcases List.mem_cons.1 h with rfl | h
      · exact .inr rfl
      · exact .inl h
    · exact .inl (List.mem_cons_of_mem _ h)
    · rcases List.mem_cons.1 h with rfl | h
      · exact .inr rfl
      · exact .inl (List.mem_cons_of_mem _ h)
    · rcases List.mem_cons.1 h with rfl | h
      · exact .inl (by simp)
      · exact (ih h).imp (List.mem_cons_of_mem _) id

/-- A write at an offset of the space keeps the canonical form. -/
theorem Memory.wf_write {m : Memory} (hm : Memory.wf m = true) {a : Nat} (ha : a < Config.vramSize) (v : Byte) :
    Memory.wf (Memory.write m a v) = true := by
  induction m with
  | nil => by_cases hv : v = Memory.unwritten <;> simp [Memory.write, Memory.wf, hv, ha]
  | cons d rest ih =>
    obtain ⟨k, b⟩ := d
    obtain ⟨hk, hb, hhead, hrest⟩ := (Memory.wf_cons _ _ _).1 hm
    have hlt := Memory.wf_lt hm
    unfold Memory.write
    split_ifs with h1 hv h2 hv
    · exact hm
    · exact (Memory.wf_cons _ _ _).2 ⟨ha, hv, by simpa using h1, hm⟩
    · exact hrest
    · subst h2; exact (Memory.wf_cons _ _ _).2 ⟨ha, hv, hhead, hrest⟩
    · refine (Memory.wf_cons _ _ _).2 ⟨hk, hb, fun c hc => ?_, ih hrest⟩
      rcases Memory.mem_write (List.mem_of_mem_head? hc) with h | h
      · exact hlt c h
      · omega

/-- A memory built by writes is canonical. -/
theorem Memory.wf_ofWrites (ws : List (Offset × Byte)) : Memory.wf (Memory.ofWrites ws) = true := by
  suffices h : ∀ m : Memory, Memory.wf m = true →
      Memory.wf (ws.foldl (fun m w => Memory.write m w.1.toNat w.2) m) = true from h [] rfl
  induction ws with
  | nil => exact fun m hm => hm
  | cons w ws ih => exact fun m hm => ih _ (Memory.wf_write hm w.1.isLt w.2)

/-- Two canonical memories that read alike are equal: equal memories are equal data. -/
theorem Memory.ext_read {m m' : Memory} (hm : Memory.wf m = true) (hm' : Memory.wf m' = true)
    (h : ∀ a, Memory.read m a = Memory.read m' a) : m = m' := by
  induction m generalizing m' with
  | nil =>
    cases m' with
    | nil => rfl
    | cons d rest =>
      obtain ⟨k, b⟩ := d
      have := h k
      simp [Memory.read] at this
      exact absurd this.symm ((Memory.wf_cons _ _ _).1 hm').2.1
  | cons c rest ih =>
    obtain ⟨k, b⟩ := c
    obtain ⟨-, hb, -, hrest⟩ := (Memory.wf_cons _ _ _).1 hm
    have hlt := Memory.wf_lt hm
    cases m' with
    | nil =>
      have := h k
      simp [Memory.read] at this
      exact absurd this hb
    | cons d rest' =>
      obtain ⟨k', b'⟩ := d
      obtain ⟨-, hb', -, hrest'⟩ := (Memory.wf_cons _ _ _).1 hm'
      have hlt' := Memory.wf_lt hm'
      have hkk : k = k' := by
        rcases Nat.lt_trichotomy k k' with hlt1 | heq | hlt1
        · have h1 := h k
          rw [Memory.read_of_lt (m := (k', b') :: rest') (a := k) (fun c hc => by
            rcases List.mem_cons.1 hc with rfl | hc
            · exact hlt1
            · exact hlt1.trans (hlt' c hc))] at h1
          exact absurd (by simpa [Memory.read] using h1) hb
        · exact heq
        · have h1 := h k'
          rw [Memory.read_of_lt (m := (k, b) :: rest) (a := k') (fun c hc => by
            rcases List.mem_cons.1 hc with rfl | hc
            · exact hlt1
            · exact hlt1.trans (hlt c hc))] at h1
          exact absurd (by simpa [Memory.read] using h1.symm) hb'
      subst hkk
      have hbb : b = b' := by simpa [Memory.read] using h k
      subst hbb
      congr 1
      refine ih hrest hrest' fun a => ?_
      by_cases ha : k = a
      · subst ha; rw [Memory.read_of_lt hlt, Memory.read_of_lt hlt']
      · simpa [Memory.read, ha] using h a

/-- A 17-bit offset is its own address: no reduction happens at the access (20_memory R50). -/
theorem vramByte_offset (m : Memory) (a : Offset) : vramByte m a.toNat = Memory.read m a.toNat := by
  simp only [vramByte]; rw [Nat.mod_eq_of_lt a.isLt]

/-- Addresses are equal modulo the size of the memory: the space is circular (10_state R20). -/
@[simp] theorem vramByte_add_size (m : Memory) (a : Nat) : vramByte m (a + Config.vramSize) = vramByte m a := by
  simp [vramByte]

@[simp] theorem memRead_length (m : Memory) (addr n : Nat) : (memRead m addr n).length = n := by simp [memRead]

/-- Element `i` of a range read (20_memory R51). -/
theorem memRead_getElem? (m : Memory) {addr n i : Nat} (h : i < n) :
    (memRead m addr n)[i]? = some (vramByte m (addr + i)) := by
  simp [memRead, h]

end Sys2Proof.Machine
end

