-- ==== Sys2Proof/Laws/State.lean ====
section
/-! SUPPORT. One lemma per field per update of State, and reading a block or a cell back after a write. -/

namespace Sys2Proof.Machine

@[simp] theorem State.setVramByte_vram (s : State) (a : Offset) (b : Byte) : (s.setVramByte a b).vram = Memory.write s.vram a.toNat b := rfl
@[simp] theorem State.setVramByte_lreg (s : State) (a : Offset) (b : Byte) : (s.setVramByte a b).lreg = s.lreg := rfl
@[simp] theorem State.setVramByte_sreg (s : State) (a : Offset) (b : Byte) : (s.setVramByte a b).sreg = s.sreg := rfl
@[simp] theorem State.setVramByte_pal (s : State) (a : Offset) (b : Byte) : (s.setVramByte a b).pal = s.pal := rfl
@[simp] theorem State.setVramByte_schedule (s : State) (a : Offset) (b : Byte) : (s.setVramByte a b).schedule = s.schedule := rfl
@[simp] theorem State.setVramByte_result (s : State) (a : Offset) (b : Byte) : (s.setVramByte a b).result = s.result := rfl

@[simp] theorem State.setLayer_vram (s : State) (l : Fin 2) (B : LayerBlock) : (s.setLayer l B).vram = s.vram := rfl
@[simp] theorem State.setLayer_lreg (s : State) (l : Fin 2) (B : LayerBlock) : (s.setLayer l B).lreg = s.lreg.set l.val B := rfl
@[simp] theorem State.setLayer_sreg (s : State) (l : Fin 2) (B : LayerBlock) : (s.setLayer l B).sreg = s.sreg := rfl
@[simp] theorem State.setLayer_pal (s : State) (l : Fin 2) (B : LayerBlock) : (s.setLayer l B).pal = s.pal := rfl
@[simp] theorem State.setLayer_schedule (s : State) (l : Fin 2) (B : LayerBlock) : (s.setLayer l B).schedule = s.schedule := rfl
@[simp] theorem State.setLayer_result (s : State) (l : Fin 2) (B : LayerBlock) : (s.setLayer l B).result = s.result := rfl

@[simp] theorem State.setSprite_vram (s : State) (k : Fin 128) (B : SpriteBlock) : (s.setSprite k B).vram = s.vram := rfl
@[simp] theorem State.setSprite_lreg (s : State) (k : Fin 128) (B : SpriteBlock) : (s.setSprite k B).lreg = s.lreg := rfl
@[simp] theorem State.setSprite_sreg (s : State) (k : Fin 128) (B : SpriteBlock) : (s.setSprite k B).sreg = s.sreg.set k.val B := rfl
@[simp] theorem State.setSprite_pal (s : State) (k : Fin 128) (B : SpriteBlock) : (s.setSprite k B).pal = s.pal := rfl
@[simp] theorem State.setSprite_schedule (s : State) (k : Fin 128) (B : SpriteBlock) : (s.setSprite k B).schedule = s.schedule := rfl
@[simp] theorem State.setSprite_result (s : State) (k : Fin 128) (B : SpriteBlock) : (s.setSprite k B).result = s.result := rfl

@[simp] theorem State.setPalCell_vram (s : State) (i : Fin 256) (c : Cell12) : (s.setPalCell i c).vram = s.vram := rfl
@[simp] theorem State.setPalCell_lreg (s : State) (i : Fin 256) (c : Cell12) : (s.setPalCell i c).lreg = s.lreg := rfl
@[simp] theorem State.setPalCell_sreg (s : State) (i : Fin 256) (c : Cell12) : (s.setPalCell i c).sreg = s.sreg := rfl
@[simp] theorem State.setPalCell_pal (s : State) (i : Fin 256) (c : Cell12) : (s.setPalCell i c).pal = s.pal.set i.val c := rfl
@[simp] theorem State.setPalCell_schedule (s : State) (i : Fin 256) (c : Cell12) : (s.setPalCell i c).schedule = s.schedule := rfl
@[simp] theorem State.setPalCell_result (s : State) (i : Fin 256) (c : Cell12) : (s.setPalCell i c).result = s.result := rfl

@[simp] theorem State.setResult_vram (s : State) (r : Result) : (s.setResult r).vram = s.vram := rfl
@[simp] theorem State.setResult_lreg (s : State) (r : Result) : (s.setResult r).lreg = s.lreg := rfl
@[simp] theorem State.setResult_sreg (s : State) (r : Result) : (s.setResult r).sreg = s.sreg := rfl
@[simp] theorem State.setResult_pal (s : State) (r : Result) : (s.setResult r).pal = s.pal := rfl
@[simp] theorem State.setResult_schedule (s : State) (r : Result) : (s.setResult r).schedule = s.schedule := rfl
@[simp] theorem State.setResult_result (s : State) (r : Result) : (s.setResult r).result = r := rfl

@[simp] theorem State.setSchedule_vram (s : State) (acts : List HostAction) : (s.setSchedule acts).vram = s.vram := rfl
@[simp] theorem State.setSchedule_lreg (s : State) (acts : List HostAction) : (s.setSchedule acts).lreg = s.lreg := rfl
@[simp] theorem State.setSchedule_sreg (s : State) (acts : List HostAction) : (s.setSchedule acts).sreg = s.sreg := rfl
@[simp] theorem State.setSchedule_pal (s : State) (acts : List HostAction) : (s.setSchedule acts).pal = s.pal := rfl
@[simp] theorem State.setSchedule_schedule (s : State) (acts : List HostAction) : (s.setSchedule acts).schedule = acts := rfl
@[simp] theorem State.setSchedule_result (s : State) (acts : List HostAction) : (s.setSchedule acts).result = s.result := rfl

@[simp] theorem State.setResult_setResult (s : State) (r r' : Result) :
    (s.setResult r).setResult r' = s.setResult r' := rfl

@[simp] theorem State.setVramByte_layer (s : State) (a : Offset) (b : Byte) (j : Fin 2) : (s.setVramByte a b).layer j = s.layer j := rfl
@[simp] theorem State.setSprite_layer (s : State) (k : Fin 128) (B : SpriteBlock) (j : Fin 2) : (s.setSprite k B).layer j = s.layer j := rfl
@[simp] theorem State.setPalCell_layer (s : State) (i : Fin 256) (c : Cell12) (j : Fin 2) : (s.setPalCell i c).layer j = s.layer j := rfl
@[simp] theorem State.setResult_layer (s : State) (r : Result) (j : Fin 2) : (s.setResult r).layer j = s.layer j := rfl
@[simp] theorem State.setSchedule_layer (s : State) (acts : List HostAction) (j : Fin 2) : (s.setSchedule acts).layer j = s.layer j := rfl

@[simp] theorem State.setVramByte_sprite (s : State) (a : Offset) (b : Byte) (j : Fin 128) : (s.setVramByte a b).sprite j = s.sprite j := rfl
@[simp] theorem State.setLayer_sprite (s : State) (l : Fin 2) (B : LayerBlock) (j : Fin 128) : (s.setLayer l B).sprite j = s.sprite j := rfl
@[simp] theorem State.setPalCell_sprite (s : State) (i : Fin 256) (c : Cell12) (j : Fin 128) : (s.setPalCell i c).sprite j = s.sprite j := rfl
@[simp] theorem State.setResult_sprite (s : State) (r : Result) (j : Fin 128) : (s.setResult r).sprite j = s.sprite j := rfl
@[simp] theorem State.setSchedule_sprite (s : State) (acts : List HostAction) (j : Fin 128) : (s.setSchedule acts).sprite j = s.sprite j := rfl

@[simp] theorem State.setVramByte_palCell (s : State) (a : Offset) (b : Byte) (j : Fin 256) : (s.setVramByte a b).palCell j = s.palCell j := rfl
@[simp] theorem State.setLayer_palCell (s : State) (l : Fin 2) (B : LayerBlock) (j : Fin 256) : (s.setLayer l B).palCell j = s.palCell j := rfl
@[simp] theorem State.setSprite_palCell (s : State) (k : Fin 128) (B : SpriteBlock) (j : Fin 256) : (s.setSprite k B).palCell j = s.palCell j := rfl
@[simp] theorem State.setResult_palCell (s : State) (r : Result) (j : Fin 256) : (s.setResult r).palCell j = s.palCell j := rfl
@[simp] theorem State.setSchedule_palCell (s : State) (acts : List HostAction) (j : Fin 256) : (s.setSchedule acts).palCell j = s.palCell j := rfl

/-- A layer block after one layer's block is replaced (10_state R21). -/
theorem State.layer_setLayer (s : State) (l l' : Fin 2) (B : LayerBlock) :
    (s.setLayer l B).layer l' = if l = l' then B else s.layer l' := by
  simp [State.layer, Vector.getElem_set, Fin.ext_iff]

/-- A sprite block after one sprite's block is replaced (10_state R23). -/
theorem State.sprite_setSprite (s : State) (k k' : Fin 128) (B : SpriteBlock) :
    (s.setSprite k B).sprite k' = if k = k' then B else s.sprite k' := by
  simp [State.sprite, Vector.getElem_set, Fin.ext_iff]

/-- A palette cell after one cell is replaced (46_palette R253). -/
theorem State.palCell_setPalCell (s : State) (i i' : Fin 256) (c : Cell12) :
    (s.setPalCell i c).palCell i' = if i = i' then c else s.palCell i' := by
  simp [State.palCell, Vector.getElem_set, Fin.ext_iff]

@[simp] theorem State.layer_setLayer_same (s : State) (l : Fin 2) (B : LayerBlock) : (s.setLayer l B).layer l = B := by
  simp [State.layer_setLayer]

@[simp] theorem State.sprite_setSprite_same (s : State) (k : Fin 128) (B : SpriteBlock) :
    (s.setSprite k B).sprite k = B := by
  simp [State.sprite_setSprite]

@[simp] theorem State.palCell_setPalCell_same (s : State) (i : Fin 256) (c : Cell12) :
    (s.setPalCell i c).palCell i = c := by
  simp [State.palCell_setPalCell]

/-- Two layers' blocks are the whole layer register file. -/
theorem State.lreg_ext {s t : State} (h : ∀ l, s.layer l = t.layer l) : s.lreg = t.lreg :=
  Vector.ext fun i hi => h ⟨i, hi⟩

/-- Replacing a layer's block twice leaves the last. -/
@[simp] theorem State.setLayer_setLayer (s : State) (l : Fin 2) (B C : LayerBlock) :
    (s.setLayer l B).setLayer l C = s.setLayer l C := by
  simp [State.setLayer]

/-- Replacing a sprite's block twice leaves the last. -/
@[simp] theorem State.setSprite_setSprite (s : State) (k : Fin 128) (B C : SpriteBlock) :
    (s.setSprite k B).setSprite k C = s.setSprite k C := by
  simp [State.setSprite]

/-- The result port is its own: replacing a block comes before or after a result alike. -/
@[simp] theorem State.setResult_setLayer (s : State) (l : Fin 2) (B : LayerBlock) (r : Result) :
    (s.setResult r).setLayer l B = (s.setLayer l B).setResult r := rfl

@[simp] theorem State.setResult_setSprite (s : State) (k : Fin 128) (B : SpriteBlock) (r : Result) :
    (s.setResult r).setSprite k B = (s.setSprite k B).setResult r := rfl

@[simp] theorem complete_eq (s : State) (r : Result) : complete s r = .next (s.setResult r) := rfl

/-- An operation that ends answers its state with its value on the result port. -/
theorem complete_next {s t : State} {r : Result} (h : complete s r = .next t) : t = s.setResult r := by
  cases h; rfl

/-- The idle engine changes nothing but the result port. -/
theorem idle_eq (s : State) : idle s = s.setResult .nothing := rfl

end Sys2Proof.Machine
end

