-- ==== Sys2Proof/Laws/Ops.lean ====
section
/-! SUPPORT. For each shared operation, what it can do, said once; and what a meaning and a step can do. -/

namespace Sys2Proof.Machine

/-! ## Packed pixels -/

/-- A depth code gives 1, 2, 4 or 8 bits per pixel (30_encoding R84). -/
theorem bppOf_cases (depth : BitVec 2) : bppOf depth = 1 ∨ bppOf depth = 2 ∨ bppOf depth = 4 ∨ bppOf depth = 8 := by
  revert depth; decide

/-- A lane as a number (41_unpacker R140). -/
theorem lane_toNat {bpp : Nat} (h : bpp ≤ 8) (b : Byte) (k : Nat) :
    (lane bpp b k).toNat = (b.toNat >>> (8 - bpp * (k + 1))) % 2 ^ bpp := by
  have hp : (2 : Nat) ^ bpp ≤ 256 := by
    calc (2 : Nat) ^ bpp ≤ 2 ^ 8 := Nat.pow_le_pow_right (by decide) h
      _ = 256 := rfl
  have h1 : 1 ≤ (2 : Nat) ^ bpp := Nat.one_le_two_pow
  rw [lane, BitVec.toNat_and, BitVec.toNat_ushiftRight, BitVec.toNat_ofNat, Nat.one_shiftLeft,
    Nat.mod_eq_of_lt (by omega : 2 ^ bpp - 1 < 2 ^ 8), Nat.and_two_pow_sub_one_eq_mod]

/-- The number of unpacked indices (R142). -/
@[simp] theorem unpack_length (bpp n : Nat) (src : List Byte) :
    (unpack bpp n src).length = min n (src.length * pixelsPerByte bpp) := by simp [unpack]

/-- The `i`-th unpacked index (R140). -/
theorem unpack_getElem? {bpp n i : Nat} {src : List Byte} (h : i < min n (src.length * pixelsPerByte bpp)) :
    (unpack bpp n src)[i]? =
      some (lane bpp (src.getD (i / pixelsPerByte bpp) 0#8) (i % pixelsPerByte bpp)) := by
  rw [unpack, List.getElem?_map, List.getElem?_range h]; rfl

/-- The `i`-th index unpacked from a range of video memory is the lane of the byte that holds it. -/
theorem unpack_memRead {m : Memory} {bpp n addr len i : Nat} (hi : i < n) (hl : i / pixelsPerByte bpp < len)
    (hp : 0 < pixelsPerByte bpp) :
    (unpack bpp n (memRead m addr len)).getD i 0#8 =
      lane bpp (vramByte m (addr + i / pixelsPerByte bpp)) (i % pixelsPerByte bpp) := by
  have h : i < min n ((memRead m addr len).length * pixelsPerByte bpp) := by
    rw [memRead_length, Nat.lt_min]
    exact ⟨hi, (Nat.div_lt_iff_lt_mul hp).1 hl⟩
  rw [List.getD_eq_getElem?_getD, unpack_getElem? h, Option.getD_some, List.getD_eq_getElem?_getD,
    memRead_getElem? m hl, Option.getD_some]

/-! ## Buffers -/

@[simp] theorem tabulate_width (w h : Nat) (f : Nat → Colour) : (tabulate w h f).width = w := rfl
@[simp] theorem tabulate_height (w h : Nat) (f : Nat → Colour) : (tabulate w h f).height = h := rfl
@[simp] theorem tabulate_length (w h : Nat) (f : Nat → Colour) : (tabulate w h f).data.length = w * h := by
  simp [tabulate]

/-- Pixel `i` of a buffer (10_state R37). -/
theorem tabulate_getElem? {w h i : Nat} (f : Nat → Colour) (hi : i < w * h) :
    (tabulate w h f).data[i]? = some (f i) := by
  simp [tabulate, List.getElem?_range hi]

/-- Every pixel of a buffer is one its function gives. -/
theorem mem_tabulate {w h : Nat} {f : Nat → Colour} {c : Colour} (hc : c ∈ (tabulate w h f).data) :
    ∃ i < w * h, c = f i := by
  obtain ⟨i, hi, rfl⟩ := List.mem_map.1 hc
  exact ⟨i, List.mem_range.1 hi, rfl⟩

/-- The output pixel of a colour index is the expansion of its cell (44_layer_compositor R211). -/
theorem colourAt_palx (pal : Vector Cell12 256) {ci : Nat} (h : ci < 256) :
    some (colourAt (palx pal) ci) = pal[ci]?.map expand := by
  simp [colourAt, palx, Nat.mod_eq_of_lt h, h]

/-- Every expanded colour is opaque (46_palette R250). -/
theorem expand_opaque (c : Cell12) : opaqueColour (expand c) = true := by
  simp only [opaqueColour, expand, beq_iff_eq]
  rw [BitVec.extractLsb'_append_eq_right]

/-- Every output pixel is opaque (R211). -/
theorem colourAt_opaque (pal : Vector Cell12 256) (ci : Nat) : opaqueColour (colourAt (palx pal) ci) = true := by
  simp [colourAt, palx, expand_opaque]

/-! ## The common encode step -/

/-- A fragment's rewrite changes one byte, in the bits of its mask. -/
theorem Fragment.put_getElem {n : Nat} (f : Fragment n) (x : Nat) (B : Vector Byte n) (o : Fin n) :
    (f.put x B)[o] = if f.byte = o then (B[o] &&& ~~~f.mask) ||| (BitVec.ofNat 8 (x <<< f.shift) &&& f.mask) else B[o] := by
  by_cases h : f.byte = o
  · subst h; simp [Fragment.put]
  · have h' : f.byte.val ≠ o.val := fun e => h (Fin.ext e)
    simp [Fragment.put, h, h']

/-- An encode over a layer block: the next state is the field's rewrite of that block (42_layer_codec R151). -/
theorem encodeLayerField_eq (f : BlockField 7) (id : BitVec 8) (val : BitVec 32) (s : State) :
    encodeLayerField f id val s =
      .next ((s.setLayer (layerOf id) (f.encode (fieldValueOf val) (s.layer (layerOf id)))).setResult .nothing) := rfl

/-- An encode over a sprite block (43_sprite_codec R181). -/
theorem encodeSpriteField_eq (f : BlockField 8) (id : BitVec 8) (val : BitVec 32) (s : State) :
    encodeSpriteField f id val s =
      .next ((s.setSprite (spriteOf id) (f.encode (fieldValueOf val) (s.sprite (spriteOf id)))).setResult .nothing) := rfl

/-- The layer id is the port's remainder by 2 (30_encoding R81). -/
@[simp] theorem layerOf_val (id : BitVec 8) : (layerOf id).val = id.toNat % 2 := by simp [layerOf, bits]

/-- The sprite id is the port's remainder by 128. -/
@[simp] theorem spriteOf_val (id : BitVec 8) : (spriteOf id).val = id.toNat % 128 := by simp [spriteOf, bits]

/-- The palette index is the port's value. -/
@[simp] theorem palIndexOf_val (id : BitVec 8) : (palIndexOf id).val = id.toNat := rfl

/-- The field value is the port's remainder by 2^17. -/
theorem fieldValueOf_eq (val : BitVec 32) : fieldValueOf val = val.toNat % 2 ^ 17 := by simp [fieldValueOf, bits]

/-! ## What an operation, a host write and a step can do -/

/-- The states an operation that ends can leave, the result port apart: the state it started in, or that state with
one location of one space written. -/
inductive Effect (s : State) : State → Prop where
  | none : Effect s s
  | vram (a : Offset) (b : Byte) : Effect s (s.setVramByte a b)
  | layer (l : Fin 2) (B : LayerBlock) : Effect s (s.setLayer l B)
  | sprite (k : Fin 128) (B : SpriteBlock) : Effect s (s.setSprite k B)
  | cell (i : Fin 256) (c : Cell12) : Effect s (s.setPalCell i c)

/-- What `exec` can answer: a next state that is one effect and a value on the result port. -/
theorem exec_next {i : Instr} {s t : State} (h : exec i s = .next t) :
    ∃ u r, Effect s u ∧ t = u.setResult r := by
  cases i
  case rdr addr len =>
    simp only [exec, execRdr] at h
    split at h
    · cases h
    · exact ⟨_, _, .none, complete_next h⟩
  case lrgr id off =>
    simp only [exec, execLrgr] at h
    split at h
    · cases h
    · exact ⟨_, _, .none, complete_next h⟩
  case lrgw id off val =>
    simp only [exec, execLrgw] at h
    split at h
    · cases h
    · exact ⟨_, _, .layer _ _, complete_next h⟩
  case rregion id addr w h' depth sel =>
    simp only [exec, execRregion] at h
    split at h
    · cases h
    · exact ⟨_, _, .none, complete_next h⟩
  all_goals
    first
    | exact ⟨_, _, .none, complete_next h⟩
    | exact ⟨_, _, .vram _ _, complete_next h⟩
    | exact ⟨_, _, .layer _ _, complete_next h⟩
    | exact ⟨_, _, .sprite _ _, complete_next h⟩
    | exact ⟨_, _, .cell _ _, complete_next h⟩

/-- A host write leaves the schedule alone and puts nothing on the result port. -/
@[simp] theorem hostWrite_schedule (w : HostWrite) (s : State) : (hostWrite w s).schedule = s.schedule := by
  cases w <;> rfl

@[simp] theorem hostWrite_result (w : HostWrite) (s : State) : (hostWrite w s).result = .nothing := by
  cases w <;> rfl

/-- A host write keeps the video memory canonical. -/
theorem hostWrite_wf (w : HostWrite) {s : State} (h : Memory.wf s.vram = true) :
    Memory.wf (hostWrite w s).vram = true := by
  cases w with
  | vram a b => exact Memory.wf_write h a.isLt b
  | replace m _ _ _ => exact Memory.wf_ofWrites m
  | lreg _ _ _ => exact h
  | sreg _ _ _ => exact h
  | pal _ _ => exact h

/-- What a step can answer: idle, a host write, or the operation a command spells. -/
theorem step_next {s t : State} (h : step s = .next t) :
    (s.schedule = [] ∧ t = idle s) ∨
    (∃ w rest, s.schedule = .write w :: rest ∧ t = hostWrite w (s.setSchedule rest)) ∨
    (∃ c rest i, s.schedule = .command c :: rest ∧ decode c = .ok i ∧ exec i (s.setSchedule rest) = .next t) := by
  unfold step at h
  split at h
  · cases h; exact .inl ⟨by assumption, rfl⟩
  · rename_i c rest hs
    unfold runCommand at h
    split at h
    · exact .inr (.inr ⟨c, rest, _, hs, by assumption, h⟩)
    · cases h
  · cases h; exact .inr (.inl ⟨_, _, by assumption, rfl⟩)

end Sys2Proof.Machine
end

