-- ==== Sys2Proof/Laws/PerInstr.lean ====
section
/-! SUPPORT. A statement about every operation, one lemma per constructor: its command carries its opcode, and the
decoder reads it back from its ports (30_encoding R82). -/

namespace Sys2Proof.Laws.PortRoundTrip

/-- The opcode of an operation (30_encoding R82). -/
def opcode : Instr → BitVec 8
  | .rdb _ => 0x00#8
  | .rdr _ _ => 0x01#8
  | .wrb _ _ => 0x02#8
  | .lrgr _ _ => 0x03#8
  | .lrgw _ _ _ => 0x04#8
  | .srgr _ _ => 0x05#8
  | .srgw _ _ _ => 0x06#8
  | .unpk _ _ _ => 0x10#8
  | .ldec _ => 0x20#8
  | .lencDepth _ _ => 0x21#8
  | .lencBitmap _ _ => 0x22#8
  | .lencT256c _ _ => 0x23#8
  | .lencMapw _ _ => 0x24#8
  | .lencMaph _ _ => 0x25#8
  | .lencMapbase _ _ => 0x26#8
  | .lencTilebase _ _ => 0x27#8
  | .lencTilew _ _ => 0x28#8
  | .lencTileh _ _ => 0x29#8
  | .lencHscroll _ _ => 0x2A#8
  | .lencVscroll _ _ => 0x2B#8
  | .sdec _ => 0x30#8
  | .sencAddr _ _ => 0x31#8
  | .sencMode _ _ => 0x32#8
  | .sencX _ _ => 0x33#8
  | .sencY _ _ => 0x34#8
  | .sencHflip _ _ => 0x35#8
  | .sencVflip _ _ => 0x36#8
  | .sencZdepth _ _ => 0x37#8
  | .sencColl _ _ => 0x38#8
  | .sencPaloff _ _ => 0x39#8
  | .sencWidth _ _ => 0x3A#8
  | .sencHeight _ _ => 0x3B#8
  | .rlayer _ => 0x40#8
  | .rregion _ _ _ _ _ _ => 0x41#8
  | .rsprite _ => 0x50#8
  | .pexp _ => 0x60#8
  | .pqnt _ => 0x61#8
  | .pget => 0x62#8
  | .psetc _ _ => 0x63#8
  | .psetq _ _ => 0x64#8

/-- The command of an operation carries its opcode, and decodes to it. -/
def Statement (i : Instr) : Prop := (encode i).op = opcode i ∧ decode (encode i) = .ok i

theorem rdb (addr : Offset) : Statement (.rdb addr) := ⟨rfl, rfl⟩
theorem rdr (addr : Offset) (len : BitVec 25) : Statement (.rdr addr len) := ⟨rfl, rfl⟩
theorem wrb (addr : Offset) (val : BitVec 32) : Statement (.wrb addr val) := ⟨rfl, rfl⟩
theorem lrgr (id : BitVec 8) (off : BitVec 3) : Statement (.lrgr id off) := ⟨rfl, rfl⟩
theorem lrgw (id : BitVec 8) (off : BitVec 3) (val : BitVec 32) : Statement (.lrgw id off val) := ⟨rfl, rfl⟩
theorem srgr (id : BitVec 8) (off : BitVec 3) : Statement (.srgr id off) := ⟨rfl, rfl⟩
theorem srgw (id : BitVec 8) (off : BitVec 3) (val : BitVec 32) : Statement (.srgw id off val) := ⟨rfl, rfl⟩
theorem unpk (depth : BitVec 2) (len : BitVec 25) (src : List Byte) : Statement (.unpk depth len src) := ⟨rfl, rfl⟩
theorem ldec (id : BitVec 8) : Statement (.ldec id) := ⟨rfl, rfl⟩
theorem lencDepth (id : BitVec 8) (val : BitVec 32) : Statement (.lencDepth id val) := ⟨rfl, rfl⟩
theorem lencBitmap (id : BitVec 8) (val : BitVec 32) : Statement (.lencBitmap id val) := ⟨rfl, rfl⟩
theorem lencT256c (id : BitVec 8) (val : BitVec 32) : Statement (.lencT256c id val) := ⟨rfl, rfl⟩
theorem lencMapw (id : BitVec 8) (val : BitVec 32) : Statement (.lencMapw id val) := ⟨rfl, rfl⟩
theorem lencMaph (id : BitVec 8) (val : BitVec 32) : Statement (.lencMaph id val) := ⟨rfl, rfl⟩
theorem lencMapbase (id : BitVec 8) (val : BitVec 32) : Statement (.lencMapbase id val) := ⟨rfl, rfl⟩
theorem lencTilebase (id : BitVec 8) (val : BitVec 32) : Statement (.lencTilebase id val) := ⟨rfl, rfl⟩
theorem lencTilew (id : BitVec 8) (val : BitVec 32) : Statement (.lencTilew id val) := ⟨rfl, rfl⟩
theorem lencTileh (id : BitVec 8) (val : BitVec 32) : Statement (.lencTileh id val) := ⟨rfl, rfl⟩
theorem lencHscroll (id : BitVec 8) (val : BitVec 32) : Statement (.lencHscroll id val) := ⟨rfl, rfl⟩
theorem lencVscroll (id : BitVec 8) (val : BitVec 32) : Statement (.lencVscroll id val) := ⟨rfl, rfl⟩
theorem sdec (id : BitVec 8) : Statement (.sdec id) := ⟨rfl, rfl⟩
theorem sencAddr (id : BitVec 8) (val : BitVec 32) : Statement (.sencAddr id val) := ⟨rfl, rfl⟩
theorem sencMode (id : BitVec 8) (val : BitVec 32) : Statement (.sencMode id val) := ⟨rfl, rfl⟩
theorem sencX (id : BitVec 8) (val : BitVec 32) : Statement (.sencX id val) := ⟨rfl, rfl⟩
theorem sencY (id : BitVec 8) (val : BitVec 32) : Statement (.sencY id val) := ⟨rfl, rfl⟩
theorem sencHflip (id : BitVec 8) (val : BitVec 32) : Statement (.sencHflip id val) := ⟨rfl, rfl⟩
theorem sencVflip (id : BitVec 8) (val : BitVec 32) : Statement (.sencVflip id val) := ⟨rfl, rfl⟩
theorem sencZdepth (id : BitVec 8) (val : BitVec 32) : Statement (.sencZdepth id val) := ⟨rfl, rfl⟩
theorem sencColl (id : BitVec 8) (val : BitVec 32) : Statement (.sencColl id val) := ⟨rfl, rfl⟩
theorem sencPaloff (id : BitVec 8) (val : BitVec 32) : Statement (.sencPaloff id val) := ⟨rfl, rfl⟩
theorem sencWidth (id : BitVec 8) (val : BitVec 32) : Statement (.sencWidth id val) := ⟨rfl, rfl⟩
theorem sencHeight (id : BitVec 8) (val : BitVec 32) : Statement (.sencHeight id val) := ⟨rfl, rfl⟩
theorem rlayer (id : BitVec 8) : Statement (.rlayer id) := ⟨rfl, rfl⟩
theorem rregion (id : BitVec 8) (addr : Offset) (w : BitVec 13) (h : BitVec 13) (depth : BitVec 2) (sel : BitVec 4) : Statement (.rregion id addr w h depth sel) := ⟨rfl, rfl⟩
theorem rsprite (id : BitVec 8) : Statement (.rsprite id) := ⟨rfl, rfl⟩
theorem pexp (val : BitVec 32) : Statement (.pexp val) := ⟨rfl, rfl⟩
theorem pqnt (val : BitVec 32) : Statement (.pqnt val) := ⟨rfl, rfl⟩
theorem pget : Statement (.pget) := ⟨rfl, rfl⟩
theorem psetc (id : BitVec 8) (val : BitVec 32) : Statement (.psetc id val) := ⟨rfl, rfl⟩
theorem psetq (id : BitVec 8) (val : BitVec 32) : Statement (.psetq id val) := ⟨rfl, rfl⟩

end Sys2Proof.Laws.PortRoundTrip
end

