-- ==== Sys2Proof/Machine/Text.lean ====
section
/-! DEFINITION. The textual syntax of 30_encoding R107: how an operation is written on a line. -/

namespace Sys2Proof.Machine

/-- A number without a prefix is decimal (00_scope R9). -/
def numberText {n : Nat} (v : BitVec n) : String := toString v.toNat

/-- A byte list is written `[b0, b1, ...]`. -/
def listText (bs : List Byte) : String := "[" ++ ", ".intercalate (bs.map numberText) ++ "]"

/-- `MNEMONIC operand, operand, ...`. -/
def operationText (mnemonic : String) (operands : List String) : String :=
  if operands.isEmpty then mnemonic else mnemonic ++ " " ++ ", ".intercalate operands

/-- An operation with its operands in the order of R82's operand column. -/
def instrText (i : Instr) : String :=
  match i with
  | .rdb addr => operationText "RDB" [numberText addr]
  | .rdr addr len => operationText "RDR" [numberText addr, numberText len]
  | .wrb addr val => operationText "WRB" [numberText addr, numberText val]
  | .lrgr id off => operationText "LRGR" [numberText id, numberText off]
  | .lrgw id off val => operationText "LRGW" [numberText id, numberText off, numberText val]
  | .srgr id off => operationText "SRGR" [numberText id, numberText off]
  | .srgw id off val => operationText "SRGW" [numberText id, numberText off, numberText val]
  | .unpk depth len src => operationText "UNPK" [numberText depth, numberText len, listText src]
  | .ldec id => operationText "LDEC" [numberText id]
  | .lencDepth id val => operationText "LENC.DEPTH" [numberText id, numberText val]
  | .lencBitmap id val => operationText "LENC.BITMAP" [numberText id, numberText val]
  | .lencT256c id val => operationText "LENC.T256C" [numberText id, numberText val]
  | .lencMapw id val => operationText "LENC.MAPW" [numberText id, numberText val]
  | .lencMaph id val => operationText "LENC.MAPH" [numberText id, numberText val]
  | .lencMapbase id val => operationText "LENC.MAPBASE" [numberText id, numberText val]
  | .lencTilebase id val => operationText "LENC.TILEBASE" [numberText id, numberText val]
  | .lencTilew id val => operationText "LENC.TILEW" [numberText id, numberText val]
  | .lencTileh id val => operationText "LENC.TILEH" [numberText id, numberText val]
  | .lencHscroll id val => operationText "LENC.HSCROLL" [numberText id, numberText val]
  | .lencVscroll id val => operationText "LENC.VSCROLL" [numberText id, numberText val]
  | .sdec id => operationText "SDEC" [numberText id]
  | .sencAddr id val => operationText "SENC.ADDR" [numberText id, numberText val]
  | .sencMode id val => operationText "SENC.MODE" [numberText id, numberText val]
  | .sencX id val => operationText "SENC.X" [numberText id, numberText val]
  | .sencY id val => operationText "SENC.Y" [numberText id, numberText val]
  | .sencHflip id val => operationText "SENC.HFLIP" [numberText id, numberText val]
  | .sencVflip id val => operationText "SENC.VFLIP" [numberText id, numberText val]
  | .sencZdepth id val => operationText "SENC.ZDEPTH" [numberText id, numberText val]
  | .sencColl id val => operationText "SENC.COLL" [numberText id, numberText val]
  | .sencPaloff id val => operationText "SENC.PALOFF" [numberText id, numberText val]
  | .sencWidth id val => operationText "SENC.WIDTH" [numberText id, numberText val]
  | .sencHeight id val => operationText "SENC.HEIGHT" [numberText id, numberText val]
  | .rlayer id => operationText "RLAYER" [numberText id]
  | .rregion id addr w h depth sel => operationText "RREGION" [numberText id, numberText addr, numberText w, numberText h, numberText depth, numberText sel]
  | .rsprite id => operationText "RSPRITE" [numberText id]
  | .pexp val => operationText "PEXP" [numberText val]
  | .pqnt val => operationText "PQNT" [numberText val]
  | .pget => operationText "PGET" []
  | .psetc id val => operationText "PSETC" [numberText id, numberText val]
  | .psetq id val => operationText "PSETQ" [numberText id, numberText val]

/-- A line: the operation, "an optional `-> name` binding the result", and "`;` starting a comment". -/
def lineText (i : Instr) (binding comment : Option String) : String :=
  instrText i ++ (match binding with | none => "" | some name => " -> " ++ name) ++
    (match comment with | none => "" | some text => " ; " ++ text)

end Sys2Proof.Machine
end

