-- ==== Sys2Proof/Tests/Slice0.lean ====
section
/-! SUPPORT. My own tests: the well-formedness checks, one written-out word per operation, the vectors of
spec/95_test_vectors.md (cited by id), and a witness for the hypotheses of every statement that has any. -/

namespace Sys2Proof.Tests

-- These closed facts are checked one after another: elaborated side by side they would all wait in threads of their own.
set_option Elab.async false

open Sys2Proof.Machine

/-! ## Helpers -/

/-- The reset state with some bytes of video memory written. -/
def withBytes (ws : List (Offset × Byte)) : State := { State.reset with vram := Memory.ofWrites ws }

/-- The next state, if there is one. -/
def nextState (o : Host.Outcome State Fault Refusal) : Option State :=
  match o with
  | .next t => some t
  | _ => none

/-- The result of the step, if there is one. -/
def resultOf (o : Host.Outcome State Fault Refusal) : Option Result := (nextState o).map State.result

/-- Layer block 0 after an operation on a given layer block 0. -/
def layerAfter (i : Instr) (B : LayerBlock) : Option LayerBlock :=
  (nextState (exec i (State.reset.setLayer 0 B))).map (State.layer · 0)

/-- Sprite block 0 after an operation on a given sprite block 0. -/
def spriteAfter (i : Instr) (B : SpriteBlock) : Option SpriteBlock :=
  (nextState (exec i (State.reset.setSprite 0 B))).map (State.sprite · 0)

/-- The reason a step is refused, if it is. -/
def refusalOf (o : Host.Outcome State Fault Refusal) : Option Refusal :=
  match o with
  | .refused r => some r
  | _ => none

/-! ## WellFormed: each check refuses an ill-formed term and admits the boundary -/

theorem test_wf_rdr : (Instr.rdr 0 0x20001#25).wf = false ∧ (Instr.rdr 0x1FFFF#17 0x20000#25).wf = true := by decide
theorem test_wf_lrgr : (Instr.lrgr 0 7#3).wf = false ∧ (Instr.lrgr 0 6#3).wf = true := by decide
theorem test_wf_lrgw : (Instr.lrgw 0 7#3 0).wf = false ∧ (Instr.lrgw 0 6#3 0).wf = true := by decide
theorem test_wf_unpk : (Instr.unpk 0 0x1000001#25 []).wf = false ∧ (Instr.unpk 0 0x1000000#25 []).wf = true := by decide
theorem test_wf_rregion : (Instr.rregion 1 0 0 0 0 0).wf = false ∧ (Instr.rregion 3 0 0 0 0 0).wf = false ∧
    (Instr.rregion 0xFC#8 0 0 0 0 0).wf = true := by decide

/-! ## Decode: a word per operation, the opcode of R82 in bits 7:0 and the ports above it in the order of log 3 -/

theorem test_decode_rdb : decodeTableWord 125 0xE06F00000 = some (.rdb 0x1C0DE#17) := by decide
theorem test_decode_rdr : decodeTableWord 125 0x1A2BAE06F00001 = some (.rdr 0x1C0DE#17 0x1A2BA#25) := by decide
theorem test_decode_wrb : decodeTableWord 125 0x195FC0262000000E06F00002 = some (.wrb 0x1C0DE#17 0xCAFE0131#32) := by decide
theorem test_decode_lrgr : decodeTableWord 125 0x5A503 = some (.lrgr 0xA5#8 0x5#3) := by decide
theorem test_decode_lrgw : decodeTableWord 125 0x195FC027E00000000005A504 = some (.lrgw 0xA5#8 0x5#3 0xCAFE013F#32) := by decide
theorem test_decode_srgr : decodeTableWord 125 0x5A505 = some (.srgr 0xA5#8 0x5#3) := by decide
theorem test_decode_srgw : decodeTableWord 125 0x195FC029A00000000005A506 = some (.srgw 0xA5#8 0x5#3 0xCAFE014D#32) := by decide
theorem test_decode_unpk : decodeBundle 0x40000000001A2E4000000010#125 [0xA5#8] = .ok (.unpk 0x2#2 0x1A2E4#25 [0xA5#8]) := by decide
theorem test_decode_ldec : decodeTableWord 125 0xA520 = some (.ldec 0xA5#8) := by decide
theorem test_decode_lencDepth : decodeTableWord 125 0x195FC02C400000000000A521 = some (.lencDepth 0xA5#8 0xCAFE0162#32) := by decide
theorem test_decode_lencBitmap : decodeTableWord 125 0x195FC02D200000000000A522 = some (.lencBitmap 0xA5#8 0xCAFE0169#32) := by decide
theorem test_decode_lencT256c : decodeTableWord 125 0x195FC02E000000000000A523 = some (.lencT256c 0xA5#8 0xCAFE0170#32) := by decide
theorem test_decode_lencMapw : decodeTableWord 125 0x195FC02EE00000000000A524 = some (.lencMapw 0xA5#8 0xCAFE0177#32) := by decide
theorem test_decode_lencMaph : decodeTableWord 125 0x195FC02FC00000000000A525 = some (.lencMaph 0xA5#8 0xCAFE017E#32) := by decide
theorem test_decode_lencMapbase : decodeTableWord 125 0x195FC030A00000000000A526 = some (.lencMapbase 0xA5#8 0xCAFE0185#32) := by decide
theorem test_decode_lencTilebase : decodeTableWord 125 0x195FC031800000000000A527 = some (.lencTilebase 0xA5#8 0xCAFE018C#32) := by decide
theorem test_decode_lencTilew : decodeTableWord 125 0x195FC032600000000000A528 = some (.lencTilew 0xA5#8 0xCAFE0193#32) := by decide
theorem test_decode_lencTileh : decodeTableWord 125 0x195FC033400000000000A529 = some (.lencTileh 0xA5#8 0xCAFE019A#32) := by decide
theorem test_decode_lencHscroll : decodeTableWord 125 0x195FC034200000000000A52A = some (.lencHscroll 0xA5#8 0xCAFE01A1#32) := by decide
theorem test_decode_lencVscroll : decodeTableWord 125 0x195FC035000000000000A52B = some (.lencVscroll 0xA5#8 0xCAFE01A8#32) := by decide
theorem test_decode_sdec : decodeTableWord 125 0xA530 = some (.sdec 0xA5#8) := by decide
theorem test_decode_sencAddr : decodeTableWord 125 0x195FC036C00000000000A531 = some (.sencAddr 0xA5#8 0xCAFE01B6#32) := by decide
theorem test_decode_sencMode : decodeTableWord 125 0x195FC037A00000000000A532 = some (.sencMode 0xA5#8 0xCAFE01BD#32) := by decide
theorem test_decode_sencX : decodeTableWord 125 0x195FC038800000000000A533 = some (.sencX 0xA5#8 0xCAFE01C4#32) := by decide
theorem test_decode_sencY : decodeTableWord 125 0x195FC039600000000000A534 = some (.sencY 0xA5#8 0xCAFE01CB#32) := by decide
theorem test_decode_sencHflip : decodeTableWord 125 0x195FC03A400000000000A535 = some (.sencHflip 0xA5#8 0xCAFE01D2#32) := by decide
theorem test_decode_sencVflip : decodeTableWord 125 0x195FC03B200000000000A536 = some (.sencVflip 0xA5#8 0xCAFE01D9#32) := by decide
theorem test_decode_sencZdepth : decodeTableWord 125 0x195FC03C000000000000A537 = some (.sencZdepth 0xA5#8 0xCAFE01E0#32) := by decide
theorem test_decode_sencColl : decodeTableWord 125 0x195FC03CE00000000000A538 = some (.sencColl 0xA5#8 0xCAFE01E7#32) := by decide
theorem test_decode_sencPaloff : decodeTableWord 125 0x195FC03DC00000000000A539 = some (.sencPaloff 0xA5#8 0xCAFE01EE#32) := by decide
theorem test_decode_sencWidth : decodeTableWord 125 0x195FC03EA00000000000A53A = some (.sencWidth 0xA5#8 0xCAFE01F5#32) := by decide
theorem test_decode_sencHeight : decodeTableWord 125 0x195FC03F800000000000A53B = some (.sencHeight 0xA5#8 0xCAFE01FC#32) := by decide
theorem test_decode_rlayer : decodeTableWord 125 0xA540 = some (.rlayer 0xA5#8) := by decide
theorem test_decode_rregion : decodeTableWord 125 0xABC91A5C00000000000000E06F0A541 = some (.rregion 0xA5#8 0x1C0DE#17 0x1234#13 0xABC#13 0x2#2 0xB#4) := by decide
theorem test_decode_rsprite : decodeTableWord 125 0xA550 = some (.rsprite 0xA5#8) := by decide
theorem test_decode_pexp : decodeTableWord 125 0x195FC0430000000000000060 = some (.pexp 0xCAFE0218#32) := by decide
theorem test_decode_pqnt : decodeTableWord 125 0x195FC043E000000000000061 = some (.pqnt 0xCAFE021F#32) := by decide
theorem test_decode_pget : decodeTableWord 125 0x62 = some (.pget) := by decide
theorem test_decode_psetc : decodeTableWord 125 0x195FC045A00000000000A563 = some (.psetc 0xA5#8 0xCAFE022D#32) := by decide
theorem test_decode_psetq : decodeTableWord 125 0x195FC046800000000000A564 = some (.psetq 0xA5#8 0xCAFE0234#32) := by decide

/-- V9.1, V9.2: reserved opcodes spell nothing; the last legal opcode of a unit does. -/
theorem test_reserved_words : ([0x07, 0x0F, 0x11, 0x1F, 0x2C, 0x2F, 0x3C, 0x3F, 0x42, 0x51, 0x65, 0x70, 0xFF].all fun w =>
    decodeTableWord 8 w == none) = true ∧ decodeTableWord 8 0x2B = some (.lencVscroll 0 0) ∧
    decodeTableWord 8 0x64 = some (.psetq 0 0) := by decide

/-- R107: the examples of the textual syntax. -/
theorem test_text : lineText (.rdr 0x1FFF8#17 16#25) (some "bytes") none = "RDR 131064, 16 -> bytes" ∧
    instrText (.lencMapw 0 5) = "LENC.MAPW 0, 5" ∧ lineText (.unpk 2 2 [0xA5#8]) (some "idx") none = "UNPK 2, 2, [165] -> idx" := by
  decide +kernel

/-! ## Accessor (V1, E3) -/

/-- V1.1. -/
theorem test_rdb_last_byte : resultOf (exec (.rdb 0x1FFFF#17) (withBytes [(0x1FFFF#17, 0x7E#8)])) = some (.byte 0x7E#8) := by
  decide +kernel

/-- V1.3. -/
theorem test_rdr_wraps : resultOf (exec (.rdr 0x1FFFF#17 2#25) (withBytes [(0x1FFFF#17, 0xAA#8), (0#17, 0xBB#8)])) =
    some (.bytes [0xAA#8, 0xBB#8]) := by decide +kernel

/-- V1.2, V1.5. -/
theorem test_rdr_empty_and_too_long : resultOf (exec (.rdr 0x123#17 0#25) State.reset) = some (.bytes []) ∧
    refusalOf (exec (.rdr 0#17 0x20001#25) State.reset) = some .rangeTooLong := by decide +kernel

/-- V1.6: only `val[7:0]` is stored. -/
theorem test_wrb_low_byte : (nextState (exec (.wrb 0x10#17 0x1A5#32) (withBytes [(0x11#17, 3#8)]))).map State.vram =
    some [(0x10, 0xA5#8), (0x11, 3#8)] := by decide +kernel

/-- A write of the byte an unlisted offset reads as removes the pair. -/
theorem test_wrb_canonical : (nextState (exec (.wrb 0x11#17 0x100#32) (withBytes [(0x11#17, 3#8)]))).map State.vram =
    some [] := by decide +kernel

/-- V1.8, V1.9. -/
theorem test_lrgr : resultOf (exec (.lrgr 1 6) (State.reset.setLayer 1 #v[1, 2, 3, 4, 5, 6, 7])) = some (.byte 7#8) ∧
    refusalOf (exec (.lrgr 0 7) State.reset) = some .noSuchRegisterByte := by decide +kernel

/-- V1.10. -/
theorem test_lrgw : layerAfter (.lrgw 0 4 0xF3#32) #v[1, 2, 3, 4, 0, 6, 7] = some #v[1, 2, 3, 4, 0xF3#8, 6, 7] ∧
    refusalOf (exec (.lrgw 0 7 0) State.reset) = some .noSuchRegisterByte := by decide +kernel

/-- V1.11: `id[7]` is ignored. -/
theorem test_srgr : resultOf (exec (.srgr 0xFF#8 7) (State.reset.setSprite 127 #v[0, 0, 0, 0, 0, 0, 0, 0x5A#8])) =
    some (.byte 0x5A#8) := by decide +kernel

/-- V1.12. -/
theorem test_srgw : spriteAfter (.srgw 0 1 0x80#32) #v[0, 0, 0, 0, 0, 0, 0, 0] = some #v[0, 0x80#8, 0, 0, 0, 0, 0, 0] := by
  decide +kernel

/-- V1.13: separate spaces. -/
theorem test_wrb_reaches_no_register : ((nextState (exec (.wrb 0x1FC08#17 0xFF#32)
    (State.reset.setSprite 1 #v[0x33#8, 0, 0, 0, 0, 0, 0, 0]))).map fun t => (t.sprite 1)[0]) = some 0x33#8 := by
  decide +kernel

/-! ## Unpacker (V2) -/

/-- V2.1 to V2.4: one byte at the four depths. -/
theorem test_unpk_depths : unpack 1 8 [0xA5#8] = [1, 0, 1, 0, 0, 1, 0, 1] ∧ unpack 2 4 [0xA5#8] = [2, 2, 1, 1] ∧
    unpack 4 2 [0xA5#8] = [0x0A, 0x05] ∧ unpack 8 1 [0xA5#8] = [0xA5#8] := by decide

/-- V2.7, V2.8: a partial byte and the early stop, through the operation. -/
theorem test_unpk_counts : resultOf (exec (.unpk 2 3 [0xA5#8, 0x3C#8]) State.reset) = some (.bytes [0x0A, 0x05, 0x03]) ∧
    resultOf (exec (.unpk 2 5 [0xA5#8]) State.reset) = some (.bytes [0x0A, 0x05]) := by decide +kernel

/-! ## Layer codec (V3) -/

/-- V3.13. -/
theorem test_ldec : decodeLayer #v[0x62#8, 0xD8#8, 0xFB#8, 0x34#8, 0xA2#8, 0xFF#8, 0x0F#8] =
    { colorDepthCode := 2, bitmapMode := false, textMode256Color := false, mapBase := 0x1B000, mapWidthLog2 := 7,
      mapHeightLog2 := 6, tileBase := 0x1F000, tileWidthLog2 := 4, tileHeightLog2 := 4, hScroll := 0x234,
      vScroll := 0xFFF } := by decide +kernel

/-- V3.14, all ones, with its derived values. -/
theorem test_ldec_derived : resultOf (exec (.ldec 0) (State.reset.setLayer 0 (Vector.replicate 7 0xFF#8))) =
    some (.layer
      { colorDepthCode := 3, bitmapMode := true, textMode256Color := true, mapBase := 0x1FE00, mapWidthLog2 := 8,
        mapHeightLog2 := 8, tileBase := 0x1F800, tileWidthLog2 := 4, tileHeightLog2 := 4, hScroll := 4095,
        vScroll := 4095 }
      { bitsPerPixel := 8, mapWidth := 256, mapHeight := 256, tileWidthPixels := 16, tileHeightPixels := 16,
        tileBytes := 256, textMode := false, bitmapWidthPixels := 640, paletteSelector := 15 }) := by decide +kernel

/-- V3.1. -/
theorem test_lenc_depth : layerAfter (.lencDepth 0 3) #v[0x62#8, 0, 3, 0, 0xA0#8, 0, 0] =
    some #v[0x63#8, 0, 3, 0, 0xA0#8, 0, 0] := by decide +kernel

/-- V3.2. -/
theorem test_lenc_bitmap : layerAfter (.lencBitmap 0 1) #v[0x62#8, 0, 3, 0, 0xA0#8, 0, 0] =
    some #v[0x66#8, 0, 3, 0, 0xA0#8, 0, 0] := by decide +kernel

/-- V3.3. -/
theorem test_lenc_t256c : layerAfter (.lencT256c 0 1) #v[0x62#8, 0, 3, 0, 0xA0#8, 0, 0] =
    some #v[0x6A#8, 0, 3, 0, 0xA0#8, 0, 0] := by decide +kernel

/-- V3.4. -/
theorem test_lenc_mapw : layerAfter (.lencMapw 0 5) #v[0x62#8, 0, 3, 0, 0xA0#8, 0, 0] =
    some #v[0x42#8, 0, 3, 0, 0xA0#8, 0, 0] := by decide +kernel

/-- V3.11: clamped, not truncated. -/
theorem test_lenc_mapw_clamps : layerAfter (.lencMapw 0 0) #v[0xFF#8, 0, 3, 0, 0xA0#8, 0, 0] =
    some #v[0xCF#8, 0, 3, 0, 0xA0#8, 0, 0] := by decide +kernel

/-- V3.5. -/
theorem test_lenc_maph : layerAfter (.lencMaph 0 8) #v[0x62#8, 0, 3, 0, 0xA0#8, 0, 0] =
    some #v[0xE2#8, 0, 3, 0, 0xA0#8, 0, 0] := by decide +kernel

/-- V3.6: the low 9 bits are dropped. -/
theorem test_lenc_mapbase : layerAfter (.lencMapbase 0 0x1B1FF#32) #v[0x62#8, 0, 3, 0, 0xA0#8, 0, 0] =
    some #v[0x62#8, 0xD8#8, 3, 0, 0xA0#8, 0, 0] := by decide +kernel

/-- V3.7. -/
theorem test_lenc_tilebase : layerAfter (.lencTilebase 0 0x1F000#32) #v[0x62#8, 0, 3, 0, 0xA0#8, 0, 0] =
    some #v[0x62#8, 0, 0xFB#8, 0, 0xA0#8, 0, 0] := by decide +kernel

/-- V3.8. -/
theorem test_lenc_tilew : layerAfter (.lencTilew 0 3) #v[0x62#8, 0, 0xFB#8, 0, 0xA0#8, 0, 0] =
    some #v[0x62#8, 0, 0xFA#8, 0, 0xA0#8, 0, 0] := by decide +kernel

/-- V3.8. -/
theorem test_lenc_tileh : layerAfter (.lencTileh 0 3) #v[0x62#8, 0, 0xFB#8, 0, 0xA0#8, 0, 0] =
    some #v[0x62#8, 0, 0xF9#8, 0, 0xA0#8, 0, 0] := by decide +kernel

/-- V3.9: the unused nibble is kept. -/
theorem test_lenc_hscroll : layerAfter (.lencHscroll 0 0x234#32) #v[0x62#8, 0, 3, 0, 0xA0#8, 0, 0] =
    some #v[0x62#8, 0, 3, 0x34#8, 0xA2#8, 0, 0] := by decide +kernel

/-- V3.10: clamped to 4095. -/
theorem test_lenc_vscroll : layerAfter (.lencVscroll 0 5000#32) #v[0x62#8, 0, 3, 0, 0xA0#8, 0, 0] =
    some #v[0x62#8, 0, 3, 0, 0xA0#8, 0xFF#8, 0x0F#8] := by decide +kernel

/-- V3.15: `id = 3` is layer 1. -/
theorem test_lenc_layer_id : ((nextState (exec (.lencDepth 3 0) ((State.reset.setLayer 0 (Vector.replicate 7 0x62#8)).setLayer 1
    (Vector.replicate 7 0x11#8)))).map fun t => ((t.layer 0)[0], (t.layer 1)[0])) = some (0x62#8, 0x10#8) := by decide +kernel

/-- The record of V3.12. -/
def layerRecord : LayerProperties :=
  { colorDepthCode := 2, bitmapMode := false, textMode256Color := false, mapBase := 0x1B000, mapWidthLog2 := 7,
    mapHeightLog2 := 6, tileBase := 0x1F000, tileWidthLog2 := 4, tileHeightLog2 := 4, hScroll := 0x234, vScroll := 0xFFF }

/-- V3.12. -/
theorem test_lencall : ((nextState (runOps (lencall 0 layerRecord) (State.reset.setLayer 0 (Vector.replicate 7 0xFF#8)))).map
    (State.layer · 0)) = some #v[0x62#8, 0xD8#8, 0xFB#8, 0x34#8, 0xF2#8, 0xFF#8, 0xFF#8] := by decide +kernel

/-! ## Sprite codec (V4) -/

/-- V4.13. -/
theorem test_sdec : resultOf (exec (.sdec 9) (State.reset.setSprite 9
      #v[0xFF#8, 0x8F#8, 0x34#8, 0x12#8, 0xF0#8, 0xFD#8, 0xA6#8, 0x9F#8])) = some (.sprite
      { address := 0x1FFE0, colorMode := true, x := 0x234, y := 0x1F0, hFlip := false, vFlip := true, zDepth := 1,
        collisionMask := 10, paletteOffset := 0xF0, widthLog2 := 4, heightLog2 := 5 }
      { bitsPerPixel := 8, widthPixels := 16, heightPixels := 32, pixelCount := 512, dataBytes := 512 }) := by
  decide +kernel

/-- V4.1. -/
theorem test_senc_addr : spriteAfter (.sencAddr 0 0x1FFE0#32) #v[0, 0x80#8, 0, 0x10#8, 0, 0xFC#8, 0xA6#8, 0x90#8] =
    some #v[0xFF#8, 0x8F#8, 0, 0x10#8, 0, 0xFC#8, 0xA6#8, 0x90#8] := by decide +kernel

/-- V4.2. -/
theorem test_senc_addr_unaligned : spriteAfter (.sencAddr 0 0x123F#32) #v[0, 0x80#8, 0, 0x10#8, 0, 0xFC#8, 0xA6#8, 0x90#8] =
    some #v[0x91#8, 0x80#8, 0, 0x10#8, 0, 0xFC#8, 0xA6#8, 0x90#8] := by decide +kernel

/-- V4.3: any non-zero value sets the flag. -/
theorem test_senc_mode : spriteAfter (.sencMode 0 77) #v[0, 0x0F#8, 0, 0x10#8, 0, 0xFC#8, 0xA6#8, 0x90#8] =
    some #v[0, 0x8F#8, 0, 0x10#8, 0, 0xFC#8, 0xA6#8, 0x90#8] := by decide +kernel

/-- V4.4. -/
theorem test_senc_x : spriteAfter (.sencX 0 0x234#32) #v[0, 0x80#8, 0, 0x10#8, 0, 0xFC#8, 0xA6#8, 0x90#8] =
    some #v[0, 0x80#8, 0x34#8, 0x12#8, 0, 0xFC#8, 0xA6#8, 0x90#8] := by decide +kernel

/-- V4.9. -/
theorem test_senc_y : spriteAfter (.sencY 0 0x1F0#32) #v[0, 0x80#8, 0, 0x10#8, 0, 0xFC#8, 0xA6#8, 0x90#8] =
    some #v[0, 0x80#8, 0, 0x10#8, 0xF0#8, 0xFD#8, 0xA6#8, 0x90#8] := by decide +kernel

/-- V4.5. -/
theorem test_senc_hflip : spriteAfter (.sencHflip 0 1) #v[0, 0x80#8, 0, 0x10#8, 0, 0xFC#8, 0xA6#8, 0x90#8] =
    some #v[0, 0x80#8, 0, 0x10#8, 0, 0xFC#8, 0xA7#8, 0x90#8] := by decide +kernel

/-- V4.6. -/
theorem test_senc_vflip : spriteAfter (.sencVflip 0 0) #v[0, 0x80#8, 0, 0x10#8, 0, 0xFC#8, 0xA6#8, 0x90#8] =
    some #v[0, 0x80#8, 0, 0x10#8, 0, 0xFC#8, 0xA4#8, 0x90#8] := by decide +kernel

/-- V4.7. -/
theorem test_senc_zdepth : spriteAfter (.sencZdepth 0 3) #v[0, 0x80#8, 0, 0x10#8, 0, 0xFC#8, 0xA6#8, 0x90#8] =
    some #v[0, 0x80#8, 0, 0x10#8, 0, 0xFC#8, 0xAE#8, 0x90#8] := by decide +kernel

/-- V4.8. -/
theorem test_senc_coll : spriteAfter (.sencColl 0 5) #v[0, 0x80#8, 0, 0x10#8, 0, 0xFC#8, 0xA6#8, 0x90#8] =
    some #v[0, 0x80#8, 0, 0x10#8, 0, 0xFC#8, 0x56#8, 0x90#8] := by decide +kernel

/-- V4.10: the low 4 bits are dropped. -/
theorem test_senc_paloff : spriteAfter (.sencPaloff 0 0x25#32) #v[0, 0x80#8, 0, 0x10#8, 0, 0xFC#8, 0xA6#8, 0x90#8] =
    some #v[0, 0x80#8, 0, 0x10#8, 0, 0xFC#8, 0xA6#8, 0x92#8] := by decide +kernel

/-- V4.10: clamped to 240. -/
theorem test_senc_paloff_clamps : spriteAfter (.sencPaloff 0 1000#32) #v[0, 0x80#8, 0, 0x10#8, 0, 0xFC#8, 0xA6#8, 0x90#8] =
    some #v[0, 0x80#8, 0, 0x10#8, 0, 0xFC#8, 0xA6#8, 0x9F#8] := by decide +kernel

/-- V4.11. -/
theorem test_senc_width : spriteAfter (.sencWidth 0 4) #v[0, 0x80#8, 0, 0x10#8, 0, 0xFC#8, 0xA6#8, 0x8F#8] =
    some #v[0, 0x80#8, 0, 0x10#8, 0, 0xFC#8, 0xA6#8, 0x9F#8] := by decide +kernel

/-- V4.12. -/
theorem test_senc_height : spriteAfter (.sencHeight 0 5) #v[0, 0x80#8, 0, 0x10#8, 0, 0xFC#8, 0xA6#8, 0x1F#8] =
    some #v[0, 0x80#8, 0, 0x10#8, 0, 0xFC#8, 0xA6#8, 0x9F#8] := by decide +kernel

/-! ## Compositors (V5, V7, V8): palette cells are their own index, so that a pixel names its colour index -/

/-- The reset state with cell `i` of the palette holding `i`, some bytes of video memory and one layer block. -/
def picture (ws : List (Offset × Byte)) (B : LayerBlock) : State :=
  ({ withBytes ws with pal := Vector.ofFn fun i : Fin 256 => BitVec.ofNat 12 i.val }).setLayer 0 B

/-- The pixels of some colour indices in such a state. -/
def shown (is : List (BitVec 12)) : List Colour := is.map expand

/-- The state of V5.1. -/
def flipsState : State := picture
  [(0x00000#17, 0x02#8), (0x00003#17, 0x04#8), (0x00002#17, 0x02#8), (0x00004#17, 0x02#8), (0x00005#17, 0x18#8),
   (0x00006#17, 0x02#8), (0x00007#17, 0x0C#8), (0x10040#17, 0x12#8), (0x10041#17, 0x34#8), (0x10042#17, 0x56#8),
   (0x10043#17, 0x78#8), (0x1005C#17, 0x9A#8), (0x1005D#17, 0xBC#8), (0x1005E#17, 0xDE#8), (0x1005F#17, 0xF0#8)]
  #v[0x02#8, 0, 0x80#8, 0, 0, 0, 0]

/-- V5.1: row 7 of the plain cell, of the cell with both flips, and row 0 of the vertically flipped one under selector 1. -/
theorem test_rlayer_flips : (let p := decodeLayer (flipsState.layer 0)
    let px := tilePixel flipsState.vram (palx flipsState.pal) p
    ((List.range 8).map fun x => px 0 0 x 7) = shown [9, 10, 11, 12, 13, 14, 15, 0] ∧
    ((List.range 8).map fun x => px 3 0 x 7) = shown [8, 7, 6, 5, 4, 3, 2, 1] ∧
    ((List.range 8).map fun x => px 2 0 x 0) = shown [0x19, 0x1A, 0x1B, 0x1C, 0x1D, 0x1E, 0x1F, 0]) := by decide +kernel

/-- V5.1 through the operation: buffer row 0, column 8 is the last pixel of tile row 0, mirrored. -/
theorem test_rlayer_tile_buffer : ∃ buf : PixelBuffer,
    exec (.rlayer 0) flipsState = .next (flipsState.setResult (.pixels buf)) ∧ buf.width = 256 ∧ buf.height = 256 ∧
    buf.data[8]? = some (expand 8) := by
  have hm : ¬ (decodeLayer (flipsState.layer 0)).bitmapMode = true := by decide +kernel
  refine ⟨tileRender flipsState.vram (palx flipsState.pal) (decodeLayer (flipsState.layer 0)), ?_,
    by decide +kernel, by decide +kernel, ?_⟩
  · show Host.Outcome.next (flipsState.setResult (.pixels (renderLayer _ _ (flipsState.layer 0)))) = _
    simp only [renderLayer]
    rw [if_neg hm]
  · refine (tabulate_getElem? _ (by decide +kernel)).trans ?_
    decide +kernel

/-- The state of V5.2. -/
def textState : State := picture [(0#17, 0x41#8), (1#17, 0x1E#8), (0x08208#17, 0x81#8), (0x0820F#17, 0xFF#8)]
  #v[0, 0, 0x40#8, 0, 0, 0, 0]

/-- Tile row 0 of cell (0, 0) as a layer block shows it. -/
def firstRow (s : State) (B : LayerBlock) (width : Nat) : List Colour :=
  (List.range width).map fun x => tilePixel s.vram (palx s.pal) (decodeLayer B) 0 0 x 0

/-- V5.2, V5.3: 16-colour and 256-colour text, row 0. -/
theorem test_rlayer_text :
    firstRow textState #v[0, 0, 0x40#8, 0, 0, 0, 0] 8 = shown [14, 1, 1, 1, 1, 1, 1, 14] ∧
    firstRow textState #v[8, 0, 0x40#8, 0, 0, 0, 0] 8 = shown [0x1E, 0, 0, 0, 0, 0, 0, 0x1E] := by decide +kernel

/-- The state of V5.4. -/
def quirkState : State := picture [(0#17, 1#8), (1#17, 0x30#8), (0x10041#17, 0x05#8), (0x10042#17, 0x0F#8),
  (0x10043#17, 0x10#8), (0x10044#17, 0x11#8), (0x10045#17, 0xFF#8), (0x10046#17, 0x01#8), (0x10047#17, 0x80#8)]
  #v[3, 0, 0x80#8, 0, 0, 0, 0]

/-- V5.4: the quirk at 8 bpp. -/
theorem test_rlayer_quirk : firstRow quirkState (quirkState.layer 0) 8 =
    shown [0, 0x35, 0x3F, 0x10, 0x11, 0xFF, 0x31, 0x80] := by decide +kernel

/-- V5.8: 16 by 8 tiles at 2 bpp, selector 1. -/
theorem test_rlayer_wide_tile : firstRow (picture [(0#17, 1#8), (1#17, 0x10#8), (32#17, 0x1B#8), (35#17, 0xE4#8)]
      (Vector.replicate 7 0)) #v[1, 0, 1, 0, 0, 0, 0] 16 =
    shown [0, 0x11, 0x12, 0x13, 0, 0, 0, 0, 0, 0, 0, 0, 0x13, 0x12, 0x11, 0] := by decide +kernel

/-- The state of V5.5. -/
def bitmapState : State := picture [(0#17, 0x1B#8), (80#17, 0xE4#8)] #v[5, 0, 0, 0, 2, 0, 0]

/-- V5.5 through the operation: row 0, column 1, whatever `BITMAP_HEIGHT` is. -/
theorem test_rlayer_bitmap : ∃ buf : PixelBuffer,
    exec (.rlayer 0) bitmapState = .next (bitmapState.setResult (.pixels buf)) ∧ buf.width = 320 ∧
    buf.data[1]? = some (expand 0x21) := by
  have hm : (decodeLayer (bitmapState.layer 0)).bitmapMode = true := by decide +kernel
  refine ⟨bitmapRender bitmapState.vram (palx bitmapState.pal) (decodeLayer (bitmapState.layer 0)), ?_, by decide +kernel, ?_⟩
  · show Host.Outcome.next (bitmapState.setResult (.pixels (renderLayer _ _ (bitmapState.layer 0)))) = _
    simp only [renderLayer]
    rw [if_pos hm]
  · have hw : (deriveLayer (decodeLayer (bitmapState.layer 0))).bitmapWidthPixels = 320 := by decide +kernel
    refine (tabulate_getElem? _ ?_).trans ?_
    · rw [hw, Config.bitmapHeight]; omega
    · decide +kernel

/-- V7.1: the wrap and the unconditional offset, pixels 31 to 35 and 63. -/
theorem test_rsprite_wraps : (let s := (picture [(0x1FFFF#17, 0x20#8), (1#17, 0x10#8), (2#17, 0xFF#8), (31#17, 0x0F#8)]
      (Vector.replicate 7 0)).setSprite 5 #v[0xFF#8, 0x8F#8, 0, 0, 0, 0, 0, 0x0F#8]
    (resultOf (exec (.rsprite 5) s)).map fun r => match r with
      | .pixels b => (b.width, b.height, (b.data.drop 31).take 5, b.data.drop 63)
      | _ => (0, 0, [], [])) = some (8, 8, shown [0x10, 0xF0, 0, 0xEF, 0xF0], shown [0xFF]) := by decide +kernel

/-- V7.3: 4 bpp, row 0; V7.2: the bytes 2 and 6 play no part. -/
theorem test_rsprite_4bpp : (let s := (picture [(0x100#17, 0x0F#8), (0x101#17, 0xA5#8)]
      (Vector.replicate 7 0)).setSprite 0 #v[8, 0, 0x55#8, 0, 0, 0, 0xFF#8, 1]
    (resultOf (exec (.rsprite 0) s)).map fun r => match r with
      | .pixels b => b.data.take 8
      | _ => []) = some (shown [0x10, 0x1F, 0x1A, 0x15, 0x10, 0x10, 0x10, 0x10]) := by decide +kernel

/-- The state of V8. -/
def regionState : State := picture [(0x1FFFF#17, 0xA5#8), (0#17, 0x3C#8)] (Vector.replicate 7 0)

/-- V8.2: rows not byte-aligned; V8.3: clamped to 1 by 1. -/
theorem test_rregion : resultOf (exec (.rregion 0 0x1FFFF#17 3 2 2 1) regionState) =
      some (.pixels ⟨3, 2, shown [0x1A, 0x15, 0x13, 0x1C, 0, 0]⟩) ∧
    resultOf (exec (.rregion 0 0x1FFFF#17 0 0 3 5) regionState) = some (.pixels ⟨1, 1, shown [0xA5]⟩) := by decide +kernel

/-- V8.6. -/
theorem test_rregion_refused : refusalOf (exec (.rregion 1 0 8 8 2 0) regionState) = some .regionSourceUnknown := by
  decide +kernel

/-! ## Palette (V6) -/

/-- V6.3: the bits above 11 are ignored. -/
theorem test_pexp : resultOf (exec (.pexp 0xF1AC#32) State.reset) = some (.colour 0x11AACCFF#32) := by decide +kernel

/-- V6.5, V6.7: truncation. -/
theorem test_pqnt : resultOf (exec (.pqnt 0x12ABCDFF#32) State.reset) = some (.cell 0x1AC#12) ∧
    resultOf (exec (.pqnt 0x0F0F0F0F#32) State.reset) = some (.cell 0#12) := by decide +kernel

/-- V6.12: element 35 of `PGET`, and element 34 unchanged. -/
theorem test_pget : (resultOf (exec .pget (State.reset.setPalCell 35 0x1AC#12))).map (fun r => match r with
      | .colours cs => (cs[35], cs[34])
      | _ => (0, 0)) = some (0x11AACCFF#32, 0xFF#32) := by decide +kernel

/-- V6.14. -/
theorem test_psetc : (nextState (exec (.psetc 0x23#8 0xFFFFF123#32) State.reset)).map (State.palCell · 0x23) = some 0x123#12 := by
  decide +kernel

/-- V6.13. -/
theorem test_psetq : (nextState (exec (.psetq 7 0x12ABCD00#32) State.reset)).map (State.palCell · 7) = some 0x1AC#12 := by
  decide +kernel

/-! ## Steps -/

/-- V9.1: a reserved opcode is refused by name. -/
theorem test_step_reserved : refusalOf (step (State.reset.withFetchWord 8 0x2C)) = some (.reservedOpcode 0x2C#8) := by decide

/-- A word placed on the command port runs in the very next step. -/
theorem test_step_fetch_word : (nextState (step (State.reset.withFetchWord 125 (0x02 + 5 * 2 ^ 19 + 0xA5 * 2 ^ 61)))).map
    State.vram = some [(5, 0xA5#8)] := by decide +kernel

/-- A host write is taken off the schedule. -/
theorem test_step_host_write : (nextState (step (State.reset.setSchedule [.write (.pal 3 0xABC#12)]))).map
    (fun t => (t.palCell 3, t.schedule)) = some (0xABC#12, []) := by decide +kernel

/-! ## Witnesses: a concrete state and operands that meet the hypotheses of each statement that has any -/

/-- A state whose schedule holds one command. -/
def issuing (c : Command) : State := State.reset.setSchedule [.command c]

/-- Both clauses at their boundaries: the whole memory, a range that ends at the top, one that passes it, one too long. -/
theorem witness_ReadRangeWrapsPastTheTop :
    (0x20000#25).toNat ≤ 0x20000 ∧ (0 : Nat) < (0x20000#25).toNat ∧
    (0x1FFF0#17).toNat + (16#25).toNat ≤ 0x20000 ∧ 0x20000 < (0x1FFF0#17).toNat + (17#25).toNat ∧
    0x20000 < (0x20001#25).toNat := by decide

theorem witness_ReadRangeConcatenatesAtTheTop :
    (17#25).toNat ≤ 0x20000 ∧ 0x20000 < (0x1FFF0#17).toNat + (17#25).toNat ∧
    (0x1FFF0#17).toNat + (16#25).toNat ≤ 0x20000 ∧ (16 : Nat) < (17#25).toNat := by decide

theorem witness_WriteByteChangesOneByte :
    Memory.wf (withBytes [(0x10#17, 0xA5#8)]).vram = true ∧ (0x11 : Nat) ≠ (0x10#17).toNat ∧
    Memory.read (withBytes [(0x10#17, 0xA5#8)]).vram (0x10#17).toNat = BitVec.ofNat 8 (0x1A5#32).toNat := by decide

theorem witness_LayerByteReadsAndWrites : (1 : Fin 2).val = (0xFF#8).toNat % 2 ∧ (0 : Fin 2).val = (0#8).toNat % 2 := by decide

theorem witness_SpriteByteReadsAndWrites :
    (127 : Fin 128).val = (0xFF#8).toNat % 128 ∧ (7 : Fin 8).val = (7#3).toNat := by decide

/-- An operation of no row meets all four premises; the writing ones meet three each. -/
theorem witness_OperationsWriteOnlyTheirSpace :
    exec .pget State.reset = .next (State.reset.setResult (.colours (palx State.reset.pal))) ∧
    spaceWritten .pget ≠ some .vram ∧ spaceWritten .pget ≠ some .lreg ∧ spaceWritten .pget ≠ some .sreg ∧
    spaceWritten .pget ≠ some .pal := ⟨rfl, by decide, by decide, by decide, by decide⟩

theorem witness_UnpackReturnsLanesMostSignificantFirst :
    (0x1000000#25).toNat ≤ 2 ^ 24 ∧ (0 : Nat) < min (0x1000000#25).toNat (([0xA5#8] : List Byte).length * (8 / 2 ^ (2#2).toNat)) := by
  decide

theorem witness_UnpackLaws :
    (0x1000000#25).toNat ≤ 2 ^ 24 ∧ 5#8 ∈ unpack (bppOf 2#2) 2 [0xA5#8] ∧ (2 : Nat) ≤ 3 ∧
    ([0xA5#8] : List Byte).length * (8 / bppOf 2#2) ≤ 2 ∧ bppOf 0#2 = 1 ∧
    (7 : Nat) < min 8 (([0xA5#8] : List Byte).length * 8) := by decide

theorem witness_UnpackBeyondRangeReturnsTheFreeValue : 2 ^ 24 < (0x1000001#25).toNat := by decide

/-- The premise of the statements about one layer. -/
theorem witness_layer_id : (0 : Fin 2).val = (0xFE#8).toNat % 2 ∧ (1 : Fin 2).val = (3#8).toNat % 2 := by decide

theorem witness_LayerDecodeReadsTheSevenBytes : (1 : Fin 2).val = (3#8).toNat % 2 := by decide

theorem witness_LayerByteZeroEncodes : (1 : Fin 2).val = (3#8).toNat % 2 := by decide

theorem witness_LayerBaseAndTileSizeEncodes : (1 : Fin 2).val = (3#8).toNat % 2 := by decide

theorem witness_LayerScrollEncodes : (1 : Fin 2).val = (3#8).toNat % 2 := by decide

theorem witness_LayerEncodeSetsOnePropertyOnly : (1 : Fin 2).val = (3#8).toNat % 2 ∧ (0 : Fin 2) ≠ 1 ∧
    LayerFieldId.tileWidthLog2 ≠ LayerFieldId.tileHeightLog2 := by decide

/-- A valid record, and a record that fits but is not valid. -/
theorem witness_LayerRoundTrip : (1 : Fin 2).val = (3#8).toNat % 2 ∧ layerRecord.valid = true ∧
    layerRecord.fits ∧ { layerRecord with hScroll := 0x1FFFF }.fits ∧
    { layerRecord with hScroll := 0x1FFFF }.valid = false := by
  refine ⟨by decide, by decide, ?_, ?_, by decide⟩ <;> simp [LayerProperties.fits, layerRecord]

/-- The record of V4.13. -/
def spriteRecord : SpriteProperties :=
  { address := 0x1FFE0, colorMode := true, x := 0x234, y := 0x1F0, hFlip := false, vFlip := true, zDepth := 1,
    collisionMask := 10, paletteOffset := 0xF0, widthLog2 := 4, heightLog2 := 5 }

theorem witness_SpriteDecodeReadsTheEightBytes : (9 : Fin 128).val = (0x89#8).toNat % 128 := by decide

theorem witness_SpriteAddressAndPositionEncodes : (9 : Fin 128).val = (0x89#8).toNat % 128 := by decide

theorem witness_SpriteByteSixEncodes : (9 : Fin 128).val = (0x89#8).toNat % 128 := by decide

theorem witness_SpriteByteSevenEncodes : (9 : Fin 128).val = (0x89#8).toNat % 128 := by decide

theorem witness_SpriteEncodeSetsOnePropertyOnly : (127 : Fin 128).val = (0xFF#8).toNat % 128 ∧ (0 : Fin 128) ≠ 127 ∧
    SpriteFieldId.address ≠ SpriteFieldId.colorMode := by decide

theorem witness_SpriteRoundTrip : (127 : Fin 128).val = (0xFF#8).toNat % 128 ∧ spriteRecord.valid = true ∧
    spriteRecord.fits ∧ { spriteRecord with address := 0x1FFFF }.fits ∧
    { spriteRecord with address := 0x1FFFF }.valid = false := by
  refine ⟨by decide, by decide, ?_, ?_, by decide⟩ <;> simp [SpriteProperties.fits, spriteRecord]

/-- The quirk's range at both ends, and the indices on either side of it. -/
theorem witness_PaletteOffsetQuirk : poff 1 15 = 241 ∧ poff 15 15 = 255 ∧ poff 0 15 = 0 ∧ poff 16 15 = 16 ∧ poff 255 15 = 255 := by
  decide

theorem witness_TileModeRendersEveryCell : (0 : Fin 2).val = (0#8).toNat % 2 ∧
    (decodeLayer (flipsState.layer 0)).bitmapMode = false ∧
    31 < 2 ^ (decodeLayer (flipsState.layer 0)).mapWidthLog2 ∧ 31 < 2 ^ (decodeLayer (flipsState.layer 0)).mapHeightLog2 ∧
    7 < 2 ^ (decodeLayer (flipsState.layer 0)).tileWidthLog2 ∧ 7 < 2 ^ (decodeLayer (flipsState.layer 0)).tileHeightLog2 := by
  decide +kernel

theorem witness_BitmapModeRendersTheLinearRun : (0 : Fin 2).val = (0#8).toNat % 2 ∧
    (decodeLayer (bitmapState.layer 0)).bitmapMode = true := by decide +kernel

/-- The memory of program P2, with its start of layer 0 after the nine encodes. -/
def endToEndState : State :=
  (withBytes ([(0#17, 0x01#8), (1#17, 0x20#8)] ++ (List.range 32).map fun j => (BitVec.ofNat 17 (0x10020 + j), 0x33#8))).setLayer 0
    #v[0x02#8, 0, 0x80#8, 0xFF#8, 0xFF#8, 0xFF#8, 0xFF#8]

theorem witness_EndToEndTileBlock : (let p := decodeLayer (endToEndState.layer 0)
    (0 : Fin 2).val = (0#8).toNat % 2 ∧ p.mapWidthLog2 = 5 ∧ p.mapHeightLog2 = 5 ∧ p.tileWidthLog2 = 3 ∧
    p.tileHeightLog2 = 3 ∧ p.colorDepthCode = 2 ∧ p.bitmapMode = false ∧
    Memory.read endToEndState.vram (p.mapBase % 0x20000) = 0x01#8 ∧
    Memory.read endToEndState.vram ((p.mapBase + 1) % 0x20000) = 0x20#8 ∧
    ∀ j < 32, Memory.read endToEndState.vram ((p.tileBase + 32 + j) % 0x20000) = 0x33#8) := by decide +kernel

/-- Both modes, and both bitmap widths. -/
theorem witness_LayerRenderIsTotal : (0 : Fin 2).val = (0xFE#8).toNat % 2 ∧ (1 : Fin 2).val = (3#8).toNat % 2 ∧
    (flipsState.layer 0)[0].toNat / 4 % 2 = 0 ∧ (bitmapState.layer 0)[0].toNat / 4 % 2 = 1 ∧
    (bitmapState.layer 0)[2].toNat % 2 = 0 ∧
    ((bitmapState.setLayer 1 #v[5, 0, 1, 0, 2, 0, 0]).layer 1)[0].toNat / 4 % 2 = 1 ∧
    ((bitmapState.setLayer 1 #v[5, 0, 1, 0, 2, 0, 0]).layer 1)[2].toNat % 2 = 1 := by decide +kernel

/-- Tile mode: other scroll bytes (V5.11). Bitmap mode: another map base, map size, tile height and T256C flag. -/
theorem witness_LayerRenderIgnoresScrollAndUnusedFields : (0 : Fin 2).val = (0#8).toNat % 2 ∧
    (let p := decodeLayer (flipsState.layer 0)
     let q := decodeLayer #v[0x02#8, 0, 0x80#8, 100#8, 0x05#8, 7#8, 0xF1#8]
     p.bitmapMode = false ∧ q = { p with hScroll := q.hScroll, vScroll := q.vScroll } ∧ q.hScroll ≠ p.hScroll) ∧
    (let p := decodeLayer (bitmapState.layer 0)
     let C : LayerBlock := #v[0xFD#8, 0x77#8, 0x02#8, 9#8, 0xF2#8, 1#8, 1#8]
     let q := decodeLayer C
     p.bitmapMode = true ∧ q.bitmapMode = true ∧ q.colorDepthCode = p.colorDepthCode ∧ q.tileBase = p.tileBase ∧
     q.tileWidthLog2 = p.tileWidthLog2 ∧ C[4].toNat % 16 = (bitmapState.layer 0)[4].toNat % 16 ∧ q ≠ p) := by
  decide +kernel

theorem witness_SpriteRendersWithUnconditionalOffset : (9 : Fin 128).val = (0x89#8).toNat % 128 := by decide

/-- Two states that differ in bytes 2 to 6 of the sprite and in a layer register. -/
theorem witness_SpriteRenderIgnoresFlipsAndPosition :
    (let s := flipsState
     let t := (flipsState.setSprite 5 #v[0, 0, 0x55#8, 1#8, 0x66#8, 1#8, 0xFF#8, 0]).setLayer 0 (Vector.replicate 7 0xFF#8)
     (5 : Fin 128).val = (0x85#8).toNat % 128 ∧ t.vram = s.vram ∧ t.pal = s.pal ∧ (t.sprite 5)[0] = (s.sprite 5)[0] ∧
     (t.sprite 5)[1] = (s.sprite 5)[1] ∧ (t.sprite 5)[7] = (s.sprite 5)[7] ∧ (t.sprite 5)[6] ≠ (s.sprite 5)[6]) :=
  ⟨by decide, rfl, rfl, by decide +kernel, by decide +kernel, by decide +kernel, by decide +kernel⟩

/-- Both forms of the premise. -/
theorem witness_PaletteWritesOneCellAndItsExpansion : (255 : Fin 256).val = (0xFF#8).toNat ∧
    (Instr.psetc 0xFF#8 0xF1AC#32 = .psetc 0xFF#8 0xF1AC#32 ∧ 0x1AC#12 = BitVec.ofNat 12 (0xF1AC#32).toNat) ∧
    (Instr.psetq 0xFF#8 0x12ABCD00#32 = .psetq 0xFF#8 0x12ABCD00#32 ∧ 0x1AC#12 = quantize 0x12ABCD00#32) := by decide

/-- The source kind 0, with ignored bits set, and the other three kinds. -/
theorem witness_RegionPreviewRendersTheLinearRun : (0xFC#8).toNat % 4 = 0 ∧ (1#8).toNat % 4 ≠ 0 ∧ (2#8).toNat % 4 ≠ 0 ∧
    (3#8).toNat % 4 ≠ 0 := by decide

theorem witness_RegionPreviewShowsTheBitmapLayer : (0 : Fin 2).val = (0#8).toNat % 2 ∧
    (decodeLayer (bitmapState.layer 0)).bitmapMode = true := by decide +kernel

/-- The last opcode before each reserved range and the first and last inside it. -/
theorem witness_ReservedOpcodesSpellNoOperation :
    (issuing (Command.blank 0x07#8)).schedule = .command (Command.blank 0x07#8) :: [] ∧
    ([0x07, 0x0F, 0x11, 0x1F, 0x2C, 0x2F, 0x3C, 0x3F, 0x42, 0x4F, 0x51, 0x5F, 0x65, 0x6F, 0x70, 0xFF].all reservedOpcode) = true ∧
    ([0x06, 0x10, 0x20, 0x2B, 0x30, 0x3B, 0x40, 0x41, 0x50, 0x60, 0x64].any reservedOpcode) = false := by decide

theorem witness_OperationMapSelectsByTheOpcode : ∀ op : BitVec 8, (Command.blank op).op = op := fun _ => rfl

theorem witness_IgnoredPortBitsDoNotMatter :
    (0x05#8).toNat % 2 = (0xFB#8).toNat % 2 ∧ (0x05#8).toNat % 128 = (0x85#8).toNat % 128 ∧
    (0x01#8).toNat % 4 = (0xFD#8).toNat % 4 ∧ (0x1A5#32).toNat % 2 ^ 8 = (0xA5#32).toNat % 2 ^ 8 ∧
    (0x20005#32).toNat % 2 ^ 17 = (0x5#32).toNat % 2 ^ 17 ∧ (0xF1AC#32).toNat % 2 ^ 12 = (0x1AC#32).toNat % 2 ^ 12 := by decide

theorem witness_StepRunsTheDecodedOperation :
    (issuing (encode (.pexp 0x1AC#32))).schedule = .command (encode (.pexp 0x1AC#32)) :: [] ∧
    decode (encode (.pexp 0x1AC#32)) = .ok (.pexp 0x1AC#32) ∧ decodeTableWord 8 0x62 = some .pget := by decide

/-- Each operand the rules admit at its boundary, and each that they do not. -/
theorem witness_EveryAdmittedOperationCompletes :
    (Instr.rdr 0 0x20000#25).wf = true ∧ (Instr.lrgr 0 6).wf = true ∧ (Instr.lrgw 0 6 0).wf = true ∧
    (Instr.rregion 0 0 0 0 0 0).wf = true ∧ (Instr.unpk 0 0x1000000#25 []).wf = true ∧
    (Instr.rdr 0 0x20001#25).wf = false ∧ (Instr.lrgr 0 7).wf = false ∧ (Instr.lrgw 0 7 0).wf = false ∧
    (Instr.rregion 1 0 0 0 0 0).wf = false ∧ (Instr.unpk 0 0x1000001#25 []).wf = false := by decide

theorem witness_OperationsReturnTheirKindOfResult :
    exec (.pexp 0x1AC#32) State.reset = .next (State.reset.setResult (.colour 0x11AACCFF#32)) := by
  show Host.Outcome.next (State.reset.setResult (.colour (expand (cellOf 0x1AC#32)))) = _
  rw [show expand (cellOf 0x1AC#32) = 0x11AACCFF#32 by decide]

theorem witness_HostWritesChangeOnePlace : Memory.wf (withBytes [(0x10#17, 0xA5#8)]).vram = true := by decide

/-- A command of each `refuse` case at its boundary, its neighbour that runs, and an empty schedule. -/
theorem witness_StepCompletesOrRefusesByName :
    (issuing (encode (.rdr 0 0x20001#25))).schedule = .command (encode (.rdr 0 0x20001#25)) :: [] ∧
    refuseCase (encode (.rdr 0 0x20001#25)) = some .rangeTooLong ∧ refuseCase (encode (.rdr 0 0x20000#25)) = none ∧
    refuseCase (encode (.lrgr 0 7)) = some .noSuchRegisterByte ∧ refuseCase (encode (.lrgr 0 6)) = none ∧
    refuseCase (encode (.lrgw 0 7 0)) = some .noSuchRegisterByte ∧ refuseCase (encode (.srgr 0 7)) = none ∧
    refuseCase (encode (.rregion 1 0 0 0 0 0)) = some .regionSourceUnknown ∧ refuseCase (encode (.rregion 4 0 0 0 0 0)) = none ∧
    refuseCase (Command.blank 0x07#8) = some (.reservedOpcode 0x07#8) ∧ refuseCase (encode (.unpk 0 0x1FFFFFF#25 [])) = none ∧
    ((State.reset.setLayer 1 #v[1, 2, 3, 4, 5, 6, 7]).setResult (.byte 7#8)).schedule = [] := by decide

/-- A state that meets the invariant and whose step, a write to the last byte, answers a next state. -/
theorem witness_StepKeepsTheInvariant : (issuing (encode (.wrb 0x1FFFF#17 0xA5#32))).Inv ∧
    (nextState (step (issuing (encode (.wrb 0x1FFFF#17 0xA5#32))))).isSome = true := ⟨⟨rfl, trivial⟩, rfl⟩

/-- A reached state that is not the reset state. -/
theorem witness_ReachableStatesSatisfyTheInvariant :
    Reachable ((State.reset.setSchedule [.write (.vram 5 7#8)]).setSchedule [] |>.setVramByte 5 7#8 |>.setResult .nothing) :=
  .stepped _ _ (.scheduled _ [.write (.vram 5 7#8)] .reset) rfl

theorem witness_LegalSchedulesRunSafely :
    ∀ a ∈ (State.reset.setSchedule [.command (encode (.rdr 0x1FFFF#17 0x20000#25)), .write (.vram 5 7#8),
      .command (encode (.lrgr 1 6))]).schedule, legalAction a = true := by decide

theorem witness_ResetAcceptsEveryOperation : (Instr.rlayer 1).wf = true ∧ (Instr.rdr 0 0x20000#25).wf = true := by decide

end Sys2Proof.Tests
end

section
/-! Proofs, family 00_scope: which operations complete (R11, R287), and that a legal schedule runs safely. -/

namespace Sys2Proof.Machine

/-! ## The operations that test an operand, by whether the operand is admitted -/

/-- The test `RDR` makes is that its length is not admitted (40_accessor R121). -/
theorem exec_rdr_eq (addr : Offset) (len : BitVec 25) (s : State) :
    exec (.rdr addr len) s =
      if (Instr.rdr addr len).wf then complete s (.bytes (memRead s.vram addr.toNat len.toNat))
      else .refused .rangeTooLong := by
  by_cases h : len.toNat ≤ Config.vramSize
  · simp [exec, execRdr, rangeTooLong, Instr.wf, h]
  · simp [exec, execRdr, rangeTooLong, Instr.wf, h, Nat.lt_of_not_le h]

/-- The test `LRGR` makes is that its offset is not admitted (R123). -/
theorem exec_lrgr_eq (id : BitVec 8) (off : BitVec 3) (s : State) :
    exec (.lrgr id off) s =
      if (Instr.lrgr id off).wf then complete s (.byte (s.layer (layerOf id))[layerOffset off])
      else .refused .noSuchRegisterByte := by
  by_cases h : off = 7#3 <;> simp [exec, execLrgr, noLayerByte, Instr.wf, h]

/-- The test `LRGW` makes is that its offset is not admitted (R124). -/
theorem exec_lrgw_eq (id : BitVec 8) (off : BitVec 3) (val : BitVec 32) (s : State) :
    exec (.lrgw id off val) s =
      if (Instr.lrgw id off val).wf then
        complete (s.setLayer (layerOf id) ((s.layer (layerOf id)).set (layerOffset off).val (byteOf val))) .nothing
      else .refused .noSuchRegisterByte := by
  by_cases h : off = 7#3 <;> simp [exec, execLrgw, noLayerByte, Instr.wf, h]

/-- The test `RREGION` makes is that its source kind is not admitted (47_region_preview R270, R271). -/
theorem exec_rregion_eq (id : BitVec 8) (addr : Offset) (w h : BitVec 13) (depth : BitVec 2) (sel : BitVec 4)
    (s : State) :
    exec (.rregion id addr w h depth sel) s =
      if (Instr.rregion id addr w h depth sel).wf then
        complete s (.pixels (renderRegion s.vram s.pal addr.toNat w.toNat h.toNat (bppOf depth) sel.toNat))
      else .refused .regionSourceUnknown := by
  by_cases hid : id.extractLsb' 0 2 = 0#2 <;> simp [exec, execRregion, regionSourceUnknown, Instr.wf, hid]

/-- `UNPK` tests nothing: any count completes (41_unpacker R140; log 9). -/
theorem exec_unpk_completes (depth : BitVec 2) (len : BitVec 25) (src : List Byte) (s : State) :
    ∃ t : State, exec (.unpk depth len src) s = .next t := ⟨_, rfl⟩

/-! ## Completion and refusal -/

/-- An operation with admitted operands completes in every state (00_scope R11). The four operations that can refuse
have passed their test; the others end in `complete` with no test before it. -/
theorem exec_completes_of_wf {i : Instr} (h : i.wf = true) (s : State) : ∃ t : State, exec i s = .next t := by
  cases i
  case rdr => exact ⟨_, by rw [exec_rdr_eq, if_pos h, complete_eq]⟩
  case lrgr => exact ⟨_, by rw [exec_lrgr_eq, if_pos h, complete_eq]⟩
  case lrgw => exact ⟨_, by rw [exec_lrgw_eq, if_pos h, complete_eq]⟩
  case rregion => exact ⟨_, by rw [exec_rregion_eq, if_pos h, complete_eq]⟩
  all_goals exact ⟨_, rfl⟩

/-- Settles O49, by cases on the operation: only the five constructors with a test in `Instr.wf` can fail it. -/
theorem everyAdmittedOperationCompletes : Obligations.EveryAdmittedOperationCompletes := by
  intro i s
  refine ⟨fun h => exec_completes_of_wf h s, fun h => ?_⟩
  have hn : ¬ i.wf = true := by simp [h]
  cases i
  case rdr => exact (exec_rdr_eq ..).trans (if_neg hn)
  case lrgr => exact (exec_lrgr_eq ..).trans (if_neg hn)
  case lrgw => exact (exec_lrgw_eq ..).trans (if_neg hn)
  case rregion => exact (exec_rregion_eq ..).trans (if_neg hn)
  case unpk => exact exec_unpk_completes ..
  all_goals exact hn rfl

/-! ## What a step does with the schedule -/

/-- No operation writes the schedule. -/
theorem Effect.schedule_eq {s u : State} (h : Effect s u) : u.schedule = s.schedule := by
  cases h <;> rfl

/-- An operation that ends leaves the schedule as it was. -/
theorem exec_schedule {i : Instr} {s t : State} (h : exec i s = .next t) : t.schedule = s.schedule := by
  obtain ⟨u, r, hu, rfl⟩ := exec_next h
  exact hu.schedule_eq

/-- A step takes one action off the schedule, if there is one, and adds none. -/
theorem step_schedule {s t : State} (h : step s = .next t) : t.schedule = s.schedule.tail := by
  obtain ⟨hs, rfl⟩ | ⟨w, rest, hs, rfl⟩ | ⟨c, rest, i, hs, -, hi⟩ := step_next h
  · simp [idle_eq, hs]
  · simp [hs]
  · simp [hs, exec_schedule hi]

/-- A step with nothing on the schedule is the idle engine (log 15). -/
theorem step_of_nil {s : State} (hs : s.schedule = []) : step s = .next (idle s) := by
  simp only [step, hs]

/-- A step whose action is a host write does it (10_state R41). -/
theorem step_of_write {s : State} {w : HostWrite} {rest : List HostAction} (hs : s.schedule = .write w :: rest) :
    step s = .next (hostWrite w (s.setSchedule rest)) := by
  simp only [step, hs]

/-- A step whose action is a command that spells an operation runs the operation (30_encoding R82). -/
theorem step_of_command {s : State} {c : Command} {rest : List HostAction} {i : Instr}
    (hs : s.schedule = .command c :: rest) (hc : decode c = .ok i) : step s = exec i (s.setSchedule rest) := by
  simp only [step, hs, runCommand, hc]

/-! ## Safety of legal schedules -/

/-- A legal command spells an operation with admitted operands. -/
theorem legalCommand_iff {c : Command} : legalCommand c = true ↔ ∃ i, decode c = .ok i ∧ i.wf = true := by
  cases hc : decode c <;> simp [legalCommand, hc]

/-- A state whose schedule asks for nothing the spec refuses: the invariant of a safe run. -/
def State.LegalSchedule (s : State) : Prop := ∀ a ∈ s.schedule, legalAction a = true

/-- With a legal schedule the next step completes: idle, a host write, or an admitted operation. -/
theorem State.LegalSchedule.step_completes {s : State} (hl : s.LegalSchedule) : ∃ t : State, step s = .next t := by
  cases hs : s.schedule with
  | nil => exact ⟨_, step_of_nil hs⟩
  | cons a rest =>
    have ha : legalAction a = true := hl a (by simp [hs])
    cases a with
    | write w => exact ⟨_, step_of_write hs⟩
    | command c =>
      obtain ⟨i, hc, hi⟩ := legalCommand_iff.1 ha
      rw [step_of_command hs hc]
      exact exec_completes_of_wf hi _

/-- A step keeps a legal schedule legal: what is left was on it before. -/
theorem State.LegalSchedule.step_keeps {s t : State} (hl : s.LegalSchedule) (h : step s = .next t) :
    t.LegalSchedule := fun a ha =>
  hl a (List.mem_of_mem_tail (step_schedule h ▸ ha))

/-- The first step of a run. -/
theorem run_succ_of_step {s t : State} (h : step s = .next t) (n : Nat) :
    Host.Core.run Sys2Proof.core (n + 1) s = Host.Core.run Sys2Proof.core n t := by
  have hcore : Sys2Proof.core.step s = .next t := h
  simp only [Host.Core.run, hcore]

/-- A predicate under which every step completes and which every step keeps makes its states safe. -/
theorem safe_of_invariant {P : State → Prop} (hnext : ∀ s, P s → ∃ t : State, step s = .next t)
    (hkeep : ∀ s t, P s → step s = .next t → P t) {s : State} (hs : P s) : Safe s := by
  intro n
  induction n generalizing s with
  | zero => exact ⟨s, rfl⟩
  | succ n ih =>
    obtain ⟨t, ht⟩ := hnext s hs
    rw [run_succ_of_step ht]
    exact ih (hkeep s t hs ht)

/-- Settles O58: a legal schedule is an invariant under which every step completes. -/
theorem legalSchedulesRunSafely : Obligations.LegalSchedulesRunSafely := fun _ hs =>
  safe_of_invariant (P := State.LegalSchedule) (fun _ hl => hl.step_completes) (fun _ _ hl h => hl.step_keeps h) hs

end Sys2Proof.Machine
end

section
/-! Proofs, family 10_state: what an operation writes and returns (R38, R39), that every block decodes to a valid
record (R33, R36), the host's writes (R41), and the invariant of the machine. -/

namespace Sys2Proof.Machine

/-! ## Slices -/

/-- A slice of `hi - lo + 1` bits is below two to that power (00_scope R9). -/
theorem bits_lt {n : Nat} (v : BitVec n) (hi lo : Nat) : bits v hi lo < 2 ^ (hi - lo + 1) :=
  Nat.mod_lt _ (Nat.two_pow_pos _)

/-- Flipping bits under a mask that does not meet a slice leaves the slice. -/
theorem bits_xor_masked {n : Nat} (v x m : BitVec n) {hi lo : Nat} (hm : bits m hi lo = 0) :
    bits (v ^^^ (x &&& m)) hi lo = bits v hi lo := by
  unfold bits at hm ⊢
  rw [BitVec.toNat_xor, BitVec.toNat_and, Nat.shiftRight_xor_distrib, Nat.shiftRight_and_distrib,
    Nat.xor_mod_two_pow, Nat.and_mod_two_pow, hm, Nat.and_zero, Nat.xor_zero]

/-- A two-byte field with `k` bits in its high byte is below `2 ^ (8 + k)` (30_encoding R83). -/
theorem byte_or_shiftLeft_lt (b : Byte) {x k : Nat} (hx : x < 2 ^ k) : b.toNat ||| (x <<< 8) < 2 ^ (8 + k) :=
  Nat.or_lt_two_pow (b.isLt.trans_le (Nat.pow_le_pow_right (by decide) (by omega)))
    (by rw [Nat.shiftLeft_eq, Nat.pow_add, Nat.mul_comm]; exact Nat.mul_lt_mul_of_pos_left hx (by decide))

/-! ## Every block decodes to a valid record -/

/-- The fields of a decoded layer block are inside their ranges (10_state R31, R33): each is a slice, and the scaled
ones are shifted slices. -/
theorem decodeLayer_valid (B : LayerBlock) : (decodeLayer B).valid = true := by
  have hdepth := bits_lt B[0] 1 0
  have hmapw := bits_lt B[0] 5 4
  have hmaph := bits_lt B[0] 7 6
  have hmap := B[1].isLt
  have htile := bits_lt B[2] 7 2
  have htileh := bits_lt B[2] 1 1
  have htilew := bits_lt B[2] 0 0
  have hhscroll := byte_or_shiftLeft_lt B[3] (bits_lt B[4] 3 0)
  have hvscroll := byte_or_shiftLeft_lt B[5] (bits_lt B[6] 3 0)
  simp only [LayerProperties.valid, decodeLayer, Bool.and_eq_true, decide_eq_true_eq, Nat.shiftLeft_eq _ 9,
    Nat.shiftLeft_eq _ 11]
  omega

/-- The address of a sprite is its 12 stored bits times 32 (30_encoding R96). -/
theorem spriteAddress_eq (low high : Nat) : low <<< 5 ||| high <<< 13 = (low ||| high <<< 8) * 32 := by
  rw [← Nat.shiftLeft_eq _ 5, Nat.shiftLeft_or_distrib, ← Nat.shiftLeft_add]

/-- The fields of a decoded sprite block are inside their ranges (10_state R34, R36). -/
theorem decodeSprite_valid (B : SpriteBlock) : (decodeSprite B).valid = true := by
  have haddress := byte_or_shiftLeft_lt B[0] (bits_lt B[1] 3 0)
  have hx := byte_or_shiftLeft_lt B[2] (bits_lt B[3] 1 0)
  have hy := byte_or_shiftLeft_lt B[4] (bits_lt B[5] 1 0)
  have hz := bits_lt B[6] 3 2
  have hcoll := bits_lt B[6] 7 4
  have hpal := bits_lt B[7] 3 0
  have hwidth := bits_lt B[7] 5 4
  have hheight := bits_lt B[7] 7 6
  simp only [SpriteProperties.valid, decodeSprite, Bool.and_eq_true, decide_eq_true_eq, spriteAddress_eq,
    Nat.shiftLeft_eq _ 4]
  omega

/-- Settles O13: the decode reads bytes 4 and 6 through their low nibbles only. -/
theorem everyLayerBlockDecodesValid : Obligations.EveryLayerBlockDecodesValid := by
  intro B x y
  refine ⟨decodeLayer_valid B, ?_⟩
  have h4 := bits_xor_masked B[4] x 0xF0#8 (hi := 3) (lo := 0) (by decide)
  have h6 := bits_xor_masked B[6] y 0xF0#8 (hi := 3) (lo := 0) (by decide)
  simp [decodeLayer, h4, h6]

/-- Settles O21: the decode reads bytes 1, 3 and 5 through slices that the unused bits do not meet. -/
theorem everySpriteBlockDecodesValid : Obligations.EverySpriteBlockDecodesValid := by
  intro B x y z
  refine ⟨decodeSprite_valid B, ?_⟩
  have h1 := bits_xor_masked B[1] x 0x70#8 (hi := 3) (lo := 0) (by decide)
  have hmode := bits_xor_masked B[1] x 0x70#8 (hi := 7) (lo := 7) (by decide)
  have h3 := bits_xor_masked B[3] y 0xFC#8 (hi := 1) (lo := 0) (by decide)
  have h5 := bits_xor_masked B[5] z 0xFC#8 (hi := 1) (lo := 0) (by decide)
  simp [decodeSprite, bit, h1, hmode, h3, h5]

/-! ## Every rendered buffer is well formed (10_state R37, 44_layer_compositor R211, R223) -/

/-- A tabulated buffer of at least one pixel, all opaque, is well formed. -/
theorem tabulate_wf {w h : Nat} {f : Nat → Colour} (hw : 1 ≤ w) (hh : 1 ≤ h)
    (hf : ∀ i, opaqueColour (f i) = true) : (Result.pixels (tabulate w h f)).wf :=
  ⟨tabulate_length w h f, hw, hh, fun _ hc => by obtain ⟨i, -, rfl⟩ := mem_tabulate hc; exact hf i⟩

theorem bitmapRender_wf (m : Memory) (pal : Vector Cell12 256) (p : LayerProperties) :
    (Result.pixels (bitmapRender m (palx pal) p)).wf := by
  have hwidth : 1 ≤ (deriveLayer p).bitmapWidthPixels := by
    simp only [deriveLayer]; split <;> decide
  exact tabulate_wf hwidth (Nat.succ_pos _) fun _ => colourAt_opaque pal _

theorem tileRender_wf (m : Memory) (pal : Vector Cell12 256) (p : LayerProperties) :
    (Result.pixels (tileRender m (palx pal) p)).wf :=
  tabulate_wf (Nat.mul_pos (Nat.two_pow_pos _) (Nat.two_pow_pos _))
    (Nat.mul_pos (Nat.two_pow_pos _) (Nat.two_pow_pos _)) fun _ => colourAt_opaque pal _

theorem renderLayer_wf (m : Memory) (pal : Vector Cell12 256) (B : LayerBlock) :
    (Result.pixels (renderLayer m pal B)).wf := by
  simp only [renderLayer]
  split
  · exact bitmapRender_wf m pal _
  · exact tileRender_wf m pal _

/-- A clamp is at least its lower bound, when the bounds are in order. -/
theorem le_clamp {v lo hi : Nat} (h : lo ≤ hi) : lo ≤ clamp v lo hi := by
  unfold clamp; split_ifs <;> omega

theorem renderRegion_wf (m : Memory) (pal : Vector Cell12 256) (addr w h bpp q : Nat) :
    (Result.pixels (renderRegion m pal addr w h bpp q)).wf :=
  tabulate_wf (le_clamp (by decide)) (le_clamp (by decide)) fun _ => colourAt_opaque pal _

/-- A sprite's bytes unpack to exactly its pixels: its pixel count is even, so the bytes of 4-bit pixels are whole
(45_sprite_compositor R240). -/
theorem unpack_sprite_length (m : Memory) (B : SpriteBlock) (addr : Nat) :
    let d := deriveSprite (decodeSprite B)
    (unpack d.bitsPerPixel d.pixelCount (memRead m addr (d.pixelCount * d.bitsPerPixel / 8))).length =
      d.pixelCount := by
  intro d
  have hcount : d.pixelCount = 2 * 2 ^ ((bits B[7] 5 4 + 2) + (decodeSprite B).heightLog2) := by
    rw [← pow_succ']; simp only [d, deriveSprite, decodeSprite]; congr 1; omega
  have hbpp : d.bitsPerPixel = 4 ∨ d.bitsPerPixel = 8 := by
    simp only [d, deriveSprite]; cases (decodeSprite B).colorMode <;> simp
  rw [unpack_length, memRead_length, pixelsPerByte, hcount]
  rcases hbpp with h | h <;> rw [h] <;> omega

theorem renderSprite_wf (m : Memory) (pal : Vector Cell12 256) (B : SpriteBlock) :
    (Result.pixels (renderSprite m pal B)).wf := by
  refine ⟨?_, Nat.two_pow_pos _, Nat.two_pow_pos _, fun c hc => ?_⟩
  · exact (List.length_map _).trans ((unpack_sprite_length m B _).trans (Nat.pow_add ..))
  · obtain ⟨i, -, rfl⟩ := List.mem_map.1 hc
    exact colourAt_opaque pal _

/-- Every expanded palette colour is opaque (46_palette R250, R252). -/
theorem palx_wf (pal : Vector Cell12 256) : (Result.colours (palx pal)).wf := fun i => by
  simp [palx, expand_opaque]

/-! ## What an operation writes and returns -/

/-- The states an operation of a row of R39's table can leave, the result port apart: one location of the row's space
written, or nothing written for an operation of no row. -/
inductive EffectOn (s : State) : Option Space → State → Prop where
  | none : EffectOn s none s
  | vram (a : Offset) (b : Byte) : EffectOn s (some .vram) (s.setVramByte a b)
  | layer (l : Fin 2) (B : LayerBlock) : EffectOn s (some .lreg) (s.setLayer l B)
  | sprite (k : Fin 128) (B : SpriteBlock) : EffectOn s (some .sreg) (s.setSprite k B)
  | cell (i : Fin 256) (c : Cell12) : EffectOn s (some .pal) (s.setPalCell i c)

/-- What an operation that ends answers, with its space and its result: an effect on the space of its row (R39), and
a well-formed result of its kind (R38). -/
theorem exec_answer {i : Instr} {s t : State} (h : exec i s = .next t) :
    ∃ u r, t = u.setResult r ∧ EffectOn s (spaceWritten i) u ∧ r.kind = resultKindOf i ∧ r.wf := by
  cases i
  case rdr =>
    rw [exec_rdr_eq] at h; split at h
    · exact ⟨_, _, complete_next h, .none, rfl, trivial⟩
    · cases h
  case lrgr =>
    rw [exec_lrgr_eq] at h; split at h
    · exact ⟨_, _, complete_next h, .none, rfl, trivial⟩
    · cases h
  case lrgw =>
    rw [exec_lrgw_eq] at h; split at h
    · exact ⟨_, _, complete_next h, .layer _ _, rfl, trivial⟩
    · cases h
  case rregion =>
    rw [exec_rregion_eq] at h; split at h
    · exact ⟨_, _, complete_next h, .none, rfl, renderRegion_wf ..⟩
    · cases h
  case rdb | srgr | unpk | pqnt => exact ⟨_, _, complete_next h, .none, rfl, trivial⟩
  case wrb => exact ⟨_, _, complete_next h, .vram _ _, rfl, trivial⟩
  case lencDepth | lencBitmap | lencT256c | lencMapw | lencMaph | lencMapbase | lencTilebase | lencTilew | lencTileh
      | lencHscroll | lencVscroll => exact ⟨_, _, complete_next h, .layer _ _, rfl, trivial⟩
  case srgw | sencAddr | sencMode | sencX | sencY | sencHflip | sencVflip | sencZdepth | sencColl | sencPaloff
      | sencWidth | sencHeight => exact ⟨_, _, complete_next h, .sprite _ _, rfl, trivial⟩
  case psetc | psetq => exact ⟨_, _, complete_next h, .cell _ _, rfl, trivial⟩
  case ldec => exact ⟨_, _, complete_next h, .none, rfl, ⟨decodeLayer_valid _, rfl⟩⟩
  case sdec => exact ⟨_, _, complete_next h, .none, rfl, ⟨decodeSprite_valid _, rfl⟩⟩
  case rlayer => exact ⟨_, _, complete_next h, .none, rfl, renderLayer_wf ..⟩
  case rsprite => exact ⟨_, _, complete_next h, .none, rfl, renderSprite_wf ..⟩
  case pexp => exact ⟨_, _, complete_next h, .none, rfl, expand_opaque _⟩
  case pget => exact ⟨_, _, complete_next h, .none, rfl, palx_wf _⟩

/-- An effect leaves every space but its own, and the schedule. -/
theorem EffectOn.frame {s u : State} {w : Option Space} (h : EffectOn s w u) :
    (w ≠ some .vram → u.vram = s.vram) ∧ (w ≠ some .lreg → u.lreg = s.lreg) ∧
    (w ≠ some .sreg → u.sreg = s.sreg) ∧ (w ≠ some .pal → u.pal = s.pal) ∧ u.schedule = s.schedule := by
  cases h <;> simp

/-- An effect keeps the video memory canonical. -/
theorem EffectOn.keeps_wf {s u : State} {w : Option Space} (h : EffectOn s w u) (hs : Memory.wf s.vram = true) :
    Memory.wf u.vram = true := by
  cases h with
  | vram a b => exact Memory.wf_write hs a.isLt b
  | none | layer _ _ | sprite _ _ | cell _ _ => exact hs

/-- Settles O7: the effect of an operation is on the space of its row, and the result port is none of the spaces. -/
theorem operationsWriteOnlyTheirSpace : Obligations.OperationsWriteOnlyTheirSpace := by
  intro i s t h
  obtain ⟨u, r, rfl, hu, -, -⟩ := exec_answer h
  exact hu.frame

/-! ## The invariant -/

/-- An operation that ends on a canonical memory leaves a state that meets the invariant, whatever the result port held. -/
theorem exec_inv_of_wf {i : Instr} {s t : State} (hs : Memory.wf s.vram = true) (h : exec i s = .next t) : t.Inv := by
  obtain ⟨u, r, rfl, hu, -, hr⟩ := exec_answer h
  exact ⟨hu.keeps_wf hs, hr⟩

/-- A host write on a canonical memory leaves a state that meets the invariant: it clears the result port. -/
theorem hostWrite_inv_of_wf (w : HostWrite) {s : State} (hs : Memory.wf s.vram = true) : (hostWrite w s).Inv :=
  ⟨hostWrite_wf w hs, by rw [hostWrite_result]; trivial⟩

/-- Settles O55, by the three things a step can be: idle, a host write, or an operation. -/
theorem stepKeepsTheInvariant : Obligations.StepKeepsTheInvariant := by
  rintro s t ⟨hs, -⟩ h
  obtain ⟨-, rfl⟩ | ⟨w, rest, -, rfl⟩ | ⟨c, rest, i, -, -, hi⟩ := step_next h
  · exact ⟨hs, trivial⟩
  · exact hostWrite_inv_of_wf w hs
  · exact exec_inv_of_wf (s := s.setSchedule rest) hs hi

/-- Settles O56: the memory is empty and so is the result port. -/
theorem resetSatisfiesTheInvariant : Obligations.ResetSatisfiesTheInvariant := ⟨Memory.wf_nil, trivial⟩

/-- Settles O57, by induction on how the state is reached: the invariant does not speak of the schedule. -/
theorem reachableStatesSatisfyTheInvariant : Obligations.ReachableStatesSatisfyTheInvariant := by
  intro s h
  induction h with
  | reset => exact resetSatisfiesTheInvariant
  | scheduled s acts _ ih => exact ih
  | stepped s t _ ht ih => exact stepKeepsTheInvariant s t ih ht

/-! ## What an operation depends on -/

/-- An outcome with its next state, if there is one, mapped. -/
def mapNext (f : State → State) : Host.Outcome State Fault Refusal → Host.Outcome State Fault Refusal
  | .next t => .next (f t)
  | .fault x => .fault x
  | .refused x => .refused x

/-- Another schedule and another value on the result port change nothing in what an operation does but the schedule
it hands on (10_state R38). -/
theorem exec_of_schedule_result (i : Instr) (s : State) (acts : List HostAction) (r : Result) :
    exec i ((s.setSchedule acts).setResult r) = mapNext (·.setSchedule acts) (exec i s) := by
  cases i
  case rdr => rw [exec_rdr_eq, exec_rdr_eq]; split <;> rfl
  case lrgr => rw [exec_lrgr_eq, exec_lrgr_eq]; split <;> rfl
  case lrgw => rw [exec_lrgw_eq, exec_lrgw_eq]; split <;> rfl
  case rregion => rw [exec_rregion_eq, exec_rregion_eq]; split <;> rfl
  all_goals rfl

/-- Settles O50: the kind is part of what an operation answers, and the outcome at another schedule and result port is
the same one with that schedule. -/
theorem operationsReturnTheirKindOfResult : Obligations.OperationsReturnTheirKindOfResult := by
  intro i s acts r
  refine ⟨fun t h => ?_, ?_⟩
  · obtain ⟨u, r', rfl, -, hkind, -⟩ := exec_answer h
    exact hkind
  · rw [exec_of_schedule_result]
    cases exec i s <;> rfl

/-! ## Commands and host writes as steps -/

/-- A word of the table names an operation when its command decodes to it. -/
theorem decodeTableWord_eq_some {nbits w : Nat} {i : Instr} :
    decodeTableWord nbits w = some i ↔ decode (tableCommand nbits w) = .ok i := by
  unfold decodeTableWord
  cases decode (tableCommand nbits w) <;> simp [Except.toOption]

/-- Settles O48: `withFetchWord` puts the command before the schedule, and the step takes it off again. -/
theorem stepRunsTheDecodedOperation : Obligations.StepRunsTheDecodedOperation :=
  ⟨fun _ _ _ _ hs hc => step_of_command hs hc, fun _ _ _ _ hw => step_of_command rfl (decodeTableWord_eq_some.1 hw)⟩

/-- A byte of a block after one byte of it is replaced. -/
theorem getElem_set_byte {n : Nat} (B : Vector Byte n) (o o' : Fin n) (b : Byte) :
    (B.set o.val b)[o'] = if o' = o then b else B[o'] := by
  simp [Vector.getElem_set, Fin.ext_iff, eq_comm]

/-- A byte of a layer block after one byte of one block is replaced (10_state R21). -/
theorem State.layer_setLayer_byte (s : State) (l l' : Fin 2) (o o' : Fin 7) (b : Byte) :
    ((s.setLayer l ((s.layer l).set o.val b)).layer l')[o'] =
      if l' = l ∧ o' = o then b else (s.layer l')[o'] := by
  rw [State.layer_setLayer]
  by_cases hl : l = l'
  · subst hl; rw [if_pos rfl, getElem_set_byte]; simp
  · rw [if_neg hl, if_neg fun h => hl h.1.symm]

/-- A byte of a sprite block after one byte of one block is replaced (10_state R23). -/
theorem State.sprite_setSprite_byte (s : State) (k k' : Fin 128) (o o' : Fin 8) (b : Byte) :
    ((s.setSprite k ((s.sprite k).set o.val b)).sprite k')[o'] =
      if k' = k ∧ o' = o then b else (s.sprite k')[o'] := by
  rw [State.sprite_setSprite]
  by_cases hk : k = k'
  · subst hk; rw [if_pos rfl, getElem_set_byte]; simp
  · rw [if_neg hk, if_neg fun h => hk h.1.symm]

/-- The step of a host write at the head of the schedule (10_state R41). -/
theorem step_setSchedule_write (s : State) (w : HostWrite) (rest : List HostAction) :
    step (s.setSchedule (.write w :: rest)) = .next (hostWrite w (s.setSchedule rest)) :=
  step_of_write rfl

/-- Settles O52: each kind of host write is one write of one space, read back by the laws of that space. -/
theorem hostWritesChangeOnePlace : Obligations.HostWritesChangeOnePlace := by
  intro s rest b c hs
  refine ⟨fun a => ⟨_, step_setSchedule_write .., fun a' => ?_, rfl, rfl, rfl, rfl, rfl⟩,
    fun l o => ⟨_, step_setSchedule_write .., fun l' o' => s.layer_setLayer_byte l l' o o' b, rfl, rfl, rfl, rfl, rfl⟩,
    fun k o => ⟨_, step_setSchedule_write .., fun k' o' => s.sprite_setSprite_byte k k' o o' b, rfl, rfl, rfl, rfl, rfl⟩,
    fun i => ⟨_, step_setSchedule_write .., fun j => ?_, rfl, rfl, rfl, rfl, rfl⟩⟩
  · exact (Memory.read_write hs a.toNat a' b).trans (if_congr eq_comm rfl rfl)
  · exact (s.palCell_setPalCell i j c).trans (if_congr eq_comm rfl rfl)

/-! ## Any content of the four spaces -/

/-- What a memory reads after a list of writes that give each offset the byte of one function: that byte where the
list has the offset, and what was there elsewhere. -/
theorem Memory.read_foldl_write (content : Offset → Byte) (offsets : List Offset) {m : Memory}
    (hm : Memory.wf m = true) (a : Offset) :
    Memory.read ((offsets.map fun o => (o, content o)).foldl (fun m w => Memory.write m w.1.toNat w.2) m) a.toNat =
      if a ∈ offsets then content a else Memory.read m a.toNat := by
  induction offsets generalizing m with
  | nil => simp
  | cons o offsets ih =>
    rw [List.map_cons, List.foldl_cons, ih (Memory.wf_write hm o.isLt _), Memory.read_write hm]
    by_cases ha : a ∈ offsets
    · simp [ha]
    · by_cases ho : o = a
      · subst ho; simp
      · have hne : ¬ o.toNat = a.toNat := fun e => ho (BitVec.eq_of_toNat_eq e)
        simp [ha, hne, Ne.symm ho]

/-- The video memory that a `replace` leaves (10_state R41). -/
theorem hostWrite_replace_vram (m : List (Offset × Byte)) (lreg : Vector LayerBlock 2) (sreg : Vector SpriteBlock 128)
    (pal : Vector Cell12 256) (s : State) : (hostWrite (.replace m lreg sreg pal) s).vram = Memory.ofWrites m := rfl

/-- Every offset of the video memory, rising. -/
def allOffsets : List Offset := (List.finRange (2 ^ 17)).map BitVec.ofFin

theorem mem_allOffsets (a : Offset) : a ∈ allOffsets := List.mem_map.2 ⟨a.toFin, List.mem_finRange _, rfl⟩

/-- Writing every byte of the video memory leaves exactly the content written. -/
theorem Memory.read_ofWrites_all (content : Offset → Byte) (a : Offset) :
    Memory.read (Memory.ofWrites (allOffsets.map fun o => (o, content o))) a.toNat = content a :=
  (Memory.read_foldl_write content allOffsets Memory.wf_nil a).trans (if_pos (mem_allOffsets a))

/-- Settles O53: the host's `replace` with every byte of the content listed. -/
theorem hostCanReplaceTheFourSpaces : Obligations.HostCanReplaceTheFourSpaces := by
  intro content lreg sreg pal
  refine ⟨.replace (allOffsets.map fun o => (o, content o)) lreg sreg pal, fun s rest =>
    ⟨_, step_setSchedule_write .., fun a => ?_, rfl, rfl, rfl, rfl, rfl⟩⟩
  rw [hostWrite_replace_vram, Memory.read_ofWrites_all]

/-! ## Reset -/

/-- Settles O60: an empty memory reads as unwritten, and the register files and the palette are filled with zeros. -/
theorem resetMemoriesReadZero : Obligations.ResetMemoriesReadZero := by
  refine ⟨fun _ => rfl, fun l o => ?_, fun k o => ?_, fun i => ?_⟩
  · simp [State.layer, State.reset]
  · simp [State.sprite, State.reset]
  · simp [State.palCell, State.reset]

end Sys2Proof.Machine
end

section
/-! Proofs, family 20_memory: operations and host writes take effect one after another, in issue order (R65). -/

namespace Sys2Proof.Machine

/-! ## Outcomes one after another -/

/-- What follows an outcome: the continuation runs from its next state, and a fault or a refusal stops it. -/
def andThen (o : Host.Outcome State Fault Refusal) (k : State → Host.Outcome State Fault Refusal) :
    Host.Outcome State Fault Refusal :=
  match o with
  | .next t => k t
  | .fault x => .fault x
  | .refused x => .refused x

/-- A map of the next state goes into what follows. -/
theorem andThen_mapNext (f : State → State) (o : Host.Outcome State Fault Refusal)
    (k : State → Host.Outcome State Fault Refusal) : andThen (mapNext f o) k = andThen o fun t => k (f t) := by
  cases o <;> rfl

/-- The machine's run at its own types, which `Sys2Proof.core` holds under other names. -/
def runSteps (n : Nat) (s : State) : Host.Outcome State Fault Refusal := Host.Core.run Sys2Proof.core n s

/-- A run of the machine is its first step and what follows it. -/
theorem runSteps_succ (n : Nat) (s : State) : runSteps (n + 1) s = andThen (step s) (runSteps n) := by
  cases h : step s with
  | next t => exact run_succ_of_step h n
  | fault x =>
    have hcore : Sys2Proof.core.step s = .fault x := h
    simp only [runSteps, Host.Core.run, hcore]; rfl
  | refused x =>
    have hcore : Sys2Proof.core.step s = .refused x := h
    simp only [runSteps, Host.Core.run, hcore]; rfl

/-! ## One turn -/

/-- One turn: an operation, or a host write, which always completes (10_state R41). -/
def takeTurn : Instr ⊕ HostWrite → State → Host.Outcome State Fault Refusal
  | .inl i, s => exec i s
  | .inr w, s => .next (hostWrite w s)

/-- Turns in issue order are the first turn and what follows it. -/
theorem runTurns_cons (turn : Instr ⊕ HostWrite) (turns : List (Instr ⊕ HostWrite)) (s : State) :
    runTurns (turn :: turns) s = andThen (takeTurn turn s) (runTurns turns) := by
  cases turn with
  | inl i => cases h : exec i s <;> simp only [runTurns, takeTurn, andThen, h]
  | inr w => rfl

/-- The decoder reads an operation back from its command's ports (30_encoding R82). -/
theorem decode_encode (i : Instr) : decode (encode i) = .ok i := by
  cases i <;> rfl

/-- An operation hands its schedule on and depends on it in nothing else (10_state R38). -/
theorem exec_setSchedule (i : Instr) (s : State) (acts : List HostAction) :
    exec i (s.setSchedule acts) = mapNext (·.setSchedule acts) (exec i s) :=
  exec_of_schedule_result i s acts s.result

/-- A host write hands its schedule on and depends on it in nothing else. -/
theorem hostWrite_setSchedule (w : HostWrite) (s : State) (acts : List HostAction) :
    hostWrite w (s.setSchedule acts) = (hostWrite w s).setSchedule acts := by
  cases w <;> rfl

/-- A turn hands its schedule on and depends on it in nothing else. -/
theorem takeTurn_setSchedule (turn : Instr ⊕ HostWrite) (s : State) (acts : List HostAction) :
    takeTurn turn (s.setSchedule acts) = mapNext (·.setSchedule acts) (takeTurn turn s) := by
  cases turn with
  | inl i => exact exec_setSchedule i s acts
  | inr w => exact congrArg Host.Outcome.next (hostWrite_setSchedule w s acts)

/-- The step of a turn's action at the head of the schedule is the turn, with the action taken off. -/
theorem step_setSchedule_turnAction (turn : Instr ⊕ HostWrite) (s : State) (acts : List HostAction) :
    step (s.setSchedule (turnAction turn :: acts)) = takeTurn turn (s.setSchedule acts) := by
  cases turn with
  | inl i => exact step_of_command rfl (decode_encode i)
  | inr w => exact step_setSchedule_write s w acts

/-! ## All turns -/

/-- As many steps as there are turns on the schedule are the turns in issue order. The machine takes the first turn
with the other turns still on the schedule, `runTurns` takes it with only the rest there; a turn does not depend on the
schedule, so both leave the first turn's state, each with its own schedule, and the induction goes on from there. -/
theorem runSteps_turnActions (turns : List (Instr ⊕ HostWrite)) (rest : List HostAction) (s : State) :
    runSteps turns.length (s.setSchedule (turns.map turnAction ++ rest)) = runTurns turns (s.setSchedule rest) := by
  induction turns generalizing s with
  | nil => rfl
  | cons turn turns ih =>
    calc runSteps (turns.length + 1) (s.setSchedule (turnAction turn :: (turns.map turnAction ++ rest)))
      _ = andThen (takeTurn turn s) fun t =>
            runSteps turns.length (t.setSchedule (turns.map turnAction ++ rest)) := by
        rw [runSteps_succ, step_setSchedule_turnAction, takeTurn_setSchedule, andThen_mapNext]
      _ = andThen (takeTurn turn s) fun t => runTurns turns (t.setSchedule rest) := by simp only [ih]
      _ = runTurns (turn :: turns) (s.setSchedule rest) := by
        rw [runTurns_cons, takeTurn_setSchedule, andThen_mapNext]

/-- Settles O51: the machine's run is the run of its turns. -/
theorem stepsComposeInIssueOrder : Obligations.StepsComposeInIssueOrder := runSteps_turnActions

end Sys2Proof.Machine
end

section
/-! Proofs, family 30_encoding: commands and their bundle (R80 to R82, R105; log 3), the field tables against the
decode rules (R83, R90, R96), the port bits an operation ignores (R81), and the palette "set" edit (R108). -/

namespace Sys2Proof.Machine

/-! ## The bundle of a command (log 3) -/

/-- The ports of a command are read back from its bundle: with the ports below it dropped, each port is the lowest
slice of what is left, and the topmost port is all of it. -/
theorem ofBundle_toBundle (c : Command) : Command.ofBundle c.toBundle c.src = c := by
  obtain ⟨op, id, off, addr, len, val, depth, sel, w, h, src⟩ := c
  simp only [Command.ofBundle, Command.toBundle, Command.mk.injEq, and_true]
  refine ⟨?_, ?_, ?_, ?_, ?_, ?_, ?_, ?_, ?_, ?top⟩
  case top =>
    repeat rw [BitVec.extractLsb'_append_eq_of_le (by decide)]
    exact BitVec.extractLsb'_eq_self
  all_goals
    repeat rw [BitVec.extractLsb'_append_eq_of_le (by decide)]
    exact BitVec.extractLsb'_append_eq_right

/-- A bundle is the concatenation of its slices: the ports are adjacent, and together they are all of it. -/
theorem toBundle_ofBundle (b : BitVec bundleBits) (src : List Byte) : (Command.ofBundle b src).toBundle = b := by
  simp only [Command.toBundle, Command.ofBundle]
  iterate 9 rw [BitVec.extractLsb'_append_extractLsb'_eq_extractLsb' (by decide)]
  exact BitVec.extractLsb'_eq_self

/-- Settles O42: the bundle gives back the command of the operation, and the command decodes to the operation. -/
theorem decodeOfEncodeIsTheOperation : Obligations.DecodeOfEncodeIsTheOperation := fun i =>
  calc decode (Command.ofBundle (encode i).toBundle (encode i).src)
    _ = decode (encode i) := by rw [ofBundle_toBundle]
    _ = .ok i := decode_encode i

/-- Settles O43, one lemma for each direction. -/
theorem bundleHoldsEveryPortBit : Obligations.BundleHoldsEveryPortBit := ⟨ofBundle_toBundle, toBundle_ofBundle⟩

/-! ## The operation map (R82) and the reserved opcodes (R105) -/

/-- A reserved opcode spells no operation: none of the rows of the operation map has it. -/
theorem decode_of_reserved {c : Command} (h : reservedOpcode c.op.toNat = true) :
    decode c = .error (.reservedOpcode c.op) := by
  unfold decode
  split
  case h_41 => rfl
  all_goals
    rename_i hop
    rw [hop] at h
    exact absurd h (by decide)

/-- A command that spells no operation has none of the opcodes of the map, so its opcode is a reserved one. -/
theorem reserved_of_decode_error {c : Command} {e : DecodeError} (h : decode c = .error e) :
    reservedOpcode c.op.toNat = true := by
  unfold decode at h
  split at h
  case h_41 =>
    clear h
    generalize c.op = op at *
    simp only [imp_false] at *
    simp only [reservedOpcode, decide_eq_true_eq]
    bv_omega
  all_goals cases h

/-- The number of reserved opcodes: 72 in the seven units that have operations, and all 144 above them (R105). -/
theorem countP_reservedOpcode : (List.range 256).countP reservedOpcode = 216 := by
  have hlow : (List.range 0x70).countP reservedOpcode = 72 := by decide
  have hhigh : ((List.range 144).map (0x70 + ·)).countP reservedOpcode = 144 := by
    rw [List.countP_eq_length.2, List.length_map, List.length_range]
    simp only [List.mem_map, List.mem_range, reservedOpcode, decide_eq_true_eq]
    omega
  rw [show 256 = 0x70 + 144 from rfl, List.range_add, List.countP_append, hlow, hhigh]

/-- A step whose command has a reserved opcode is refused by that name (60_exceptions R287). -/
theorem step_of_reserved {s : State} {c : Command} {rest : List HostAction} (hs : s.schedule = .command c :: rest)
    (h : reservedOpcode c.op.toNat = true) : step s = .refused (.reservedOpcode c.op) := by
  simp only [step, hs, runCommand, decode_of_reserved h]

/-- Settles O44: an opcode decodes to an operation exactly when it is not reserved, and the step does what the decode
says. -/
theorem reservedOpcodesSpellNoOperation : Obligations.ReservedOpcodesSpellNoOperation := by
  refine ⟨countP_reservedOpcode, fun c s rest hs => ⟨step_of_reserved hs, fun h => ?_⟩⟩
  cases hc : decode c with
  | ok i => exact ⟨i, rfl, step_of_command hs hc⟩
  | error e => simp [reserved_of_decode_error hc] at h

/-- Settles O45: each row is one branch of the decoder, and each encode of a field one row of the encoder. -/
theorem operationMapSelectsByTheOpcode : Obligations.OperationMapSelectsByTheOpcode := by
  refine ⟨fun c => ?_, fun id val => ⟨fun f => ?_, fun f => ?_⟩⟩
  · and_intros <;> intro hop <;> simp only [decode, hop]
  · cases f <;> rfl
  · cases f <;> rfl

/-- Settles O47: the decoder evaluated at each word. -/
theorem tableWordsDecode : Obligations.TableWordsDecode := by
  and_intros <;> decide

/-! ## The field tables are the decode rules (R83) -/

/-- A masked and shifted byte is a slice, when the shifted mask is a run of low ones. -/
theorem toNat_and_ushiftRight {n : Nat} (v m : BitVec n) {hi lo : Nat}
    (hm : (m >>> lo).toNat = 2 ^ (hi - lo + 1) - 1) : ((v &&& m) >>> lo).toNat = bits v hi lo := by
  rw [BitVec.ushiftRight_and_distrib, BitVec.toNat_and, hm, Nat.and_two_pow_sub_one_eq_mod,
    BitVec.toNat_ushiftRight]
  rfl

/-- A flag is its one bit as a number (00_scope R9). -/
theorem toNat_bit {n : Nat} (v : BitVec n) (i : Nat) : (bit v i).toNat = bits v i i := by
  have hlt := bits_lt v i i
  rw [Nat.sub_self] at hlt
  obtain h | h : bits v i i = 0 ∨ bits v i i = 1 := by omega
  · simp [bit, h]
  · simp [bit, h]

/-- A byte is its eight low bits. -/
theorem bits_byte (b : Byte) : bits b 7 0 = b.toNat := Nat.mod_eq_of_lt b.isLt

/-- The decode of a field with one fragment: a slice, with the field's bias and scale (R83). -/
theorem BlockField.decode_one {n : Nat} {f : BlockField n} (hhigh : f.high = none) {hi : Nat}
    (hm : (f.low.mask >>> f.low.shift).toNat = 2 ^ (hi - f.low.shift + 1) - 1) (B : Vector Byte n) :
    f.decode B = (bits B[f.low.byte] hi f.low.shift + f.bias) * f.scale := by
  simp only [BlockField.decode, BlockField.stored, hhigh, Fragment.value, toNat_and_ushiftRight _ _ hm]

/-- The decode of a field with two fragments: a low and a high slice, with the field's bias and scale (R83). -/
theorem BlockField.decode_two {n : Nat} {f : BlockField n} {high : Fragment n} (hhigh : f.high = some high)
    {lhi hhi : Nat} (hlow : (f.low.mask >>> f.low.shift).toNat = 2 ^ (lhi - f.low.shift + 1) - 1)
    (hm : (high.mask >>> high.shift).toNat = 2 ^ (hhi - high.shift + 1) - 1) (B : Vector Byte n) :
    f.decode B = ((bits B[f.low.byte] lhi f.low.shift |||
      bits B[high.byte] hhi high.shift <<< f.lowWidth) + f.bias) * f.scale := by
  simp only [BlockField.decode, BlockField.stored, hhigh, Fragment.value, toNat_and_ushiftRight _ _ hlow,
    toNat_and_ushiftRight _ _ hm]

/-- Settles O12, field by field: the slice of each row of R90 is the one R150 reads, and a scale that is a power of two
is a shift. -/
theorem layerDecodeAgreesWithFieldTable : Obligations.LayerDecodeAgreesWithFieldTable := by
  intro B
  refine ⟨?_, ?_, ?_, ?_, ?_, ?_, ?_, ?_, ?_, ?_, ?_⟩
  · rw [BlockField.decode_one (hi := 1) rfl rfl]; simp [decodeLayer, fieldDepth]
  · rw [BlockField.decode_one (hi := 2) rfl rfl]; simp [decodeLayer, fieldBitmap, toNat_bit]
  · rw [BlockField.decode_one (hi := 3) rfl rfl]; simp [decodeLayer, fieldT256c, toNat_bit]
  · rw [BlockField.decode_one (hi := 5) rfl rfl]; simp [decodeLayer, fieldMapWidth]
  · rw [BlockField.decode_one (hi := 7) rfl rfl]; simp [decodeLayer, fieldMapHeight]
  · rw [BlockField.decode_one (hi := 7) rfl rfl]; simp [decodeLayer, fieldMapBase, bits_byte, Nat.shiftLeft_eq]
  · rw [BlockField.decode_one (hi := 7) rfl rfl]; simp [decodeLayer, fieldTileBase, Nat.shiftLeft_eq]
  · rw [BlockField.decode_one (hi := 0) rfl rfl]; simp [decodeLayer, fieldTileWidth]
  · rw [BlockField.decode_one (hi := 1) rfl rfl]; simp [decodeLayer, fieldTileHeight]
  · rw [BlockField.decode_two (lhi := 7) (hhi := 3) rfl rfl rfl]; simp [decodeLayer, fieldHScroll, bits_byte]
  · rw [BlockField.decode_two (lhi := 7) (hhi := 3) rfl rfl rfl]; simp [decodeLayer, fieldVScroll, bits_byte]

/-- Settles O20, field by field, as for a layer. -/
theorem spriteDecodeAgreesWithFieldTable : Obligations.SpriteDecodeAgreesWithFieldTable := by
  intro B
  refine ⟨?_, ?_, ?_, ?_, ?_, ?_, ?_, ?_, ?_, ?_, ?_⟩
  · rw [BlockField.decode_two (lhi := 7) (hhi := 3) rfl rfl rfl]
    simp [decodeSprite, fieldAddress, bits_byte, spriteAddress_eq]
  · rw [BlockField.decode_one (hi := 7) rfl rfl]; simp [decodeSprite, fieldColorMode, toNat_bit]
  · rw [BlockField.decode_two (lhi := 7) (hhi := 1) rfl rfl rfl]; simp [decodeSprite, fieldX, bits_byte]
  · rw [BlockField.decode_two (lhi := 7) (hhi := 1) rfl rfl rfl]; simp [decodeSprite, fieldY, bits_byte]
  · rw [BlockField.decode_one (hi := 0) rfl rfl]; simp [decodeSprite, fieldHFlip, toNat_bit]
  · rw [BlockField.decode_one (hi := 1) rfl rfl]; simp [decodeSprite, fieldVFlip, toNat_bit]
  · rw [BlockField.decode_one (hi := 3) rfl rfl]; simp [decodeSprite, fieldZDepth]
  · rw [BlockField.decode_one (hi := 7) rfl rfl]; simp [decodeSprite, fieldCollision]
  · rw [BlockField.decode_one (hi := 3) rfl rfl]; simp [decodeSprite, fieldPaletteOffset, Nat.shiftLeft_eq]
  · rw [BlockField.decode_one (hi := 5) rfl rfl]; simp [decodeSprite, fieldWidth]
  · rw [BlockField.decode_one (hi := 7) rfl rfl]; simp [decodeSprite, fieldHeight]

/-! ## The port bits an operation ignores (R81) -/

theorem layerOf_congr {id id' : BitVec 8} (h : id.toNat % 2 = id'.toNat % 2) : layerOf id = layerOf id' :=
  Fin.ext (by rw [layerOf_val, layerOf_val, h])

theorem spriteOf_congr {id id' : BitVec 8} (h : id.toNat % 128 = id'.toNat % 128) : spriteOf id = spriteOf id' :=
  Fin.ext (by rw [spriteOf_val, spriteOf_val, h])

theorem fieldValueOf_congr {v v' : BitVec 32} (h : v.toNat % 2 ^ 17 = v'.toNat % 2 ^ 17) :
    fieldValueOf v = fieldValueOf v' := by
  rw [fieldValueOf_eq, fieldValueOf_eq, h]

/-- The low bits of a port are its remainder by a power of two. -/
theorem extractLsb'_zero_congr {n : Nat} {v v' : BitVec n} {k : Nat} (h : v.toNat % 2 ^ k = v'.toNat % 2 ^ k) :
    v.extractLsb' 0 k = v'.extractLsb' 0 k :=
  BitVec.eq_of_toNat_eq (by simpa only [BitVec.extractLsb'_toNat, Nat.shiftRight_zero] using h)

theorem byteOf_congr {v v' : BitVec 32} (h : v.toNat % 2 ^ 8 = v'.toNat % 2 ^ 8) : byteOf v = byteOf v' :=
  extractLsb'_zero_congr h

theorem cellOf_congr {v v' : BitVec 32} (h : v.toNat % 2 ^ 12 = v'.toNat % 2 ^ 12) : cellOf v = cellOf v' :=
  extractLsb'_zero_congr h

theorem regionSourceUnknown_congr {id id' : BitVec 8} (h : id.toNat % 4 = id'.toNat % 4) :
    regionSourceUnknown id = regionSourceUnknown id' := by
  unfold regionSourceUnknown
  rw [extractLsb'_zero_congr (k := 2) h]

/-- The row of the field table R90 that a layer encode works on. -/
def LayerFieldId.blockField : LayerFieldId → BlockField 7
  | .colorDepthCode => fieldDepth
  | .bitmapMode => fieldBitmap
  | .textMode256Color => fieldT256c
  | .mapWidthLog2 => fieldMapWidth
  | .mapHeightLog2 => fieldMapHeight
  | .mapBase => fieldMapBase
  | .tileBase => fieldTileBase
  | .tileWidthLog2 => fieldTileWidth
  | .tileHeightLog2 => fieldTileHeight
  | .hScroll => fieldHScroll
  | .vScroll => fieldVScroll

/-- The row of the field table R96 that a sprite encode works on. -/
def SpriteFieldId.blockField : SpriteFieldId → BlockField 8
  | .address => fieldAddress
  | .colorMode => fieldColorMode
  | .x => fieldX
  | .y => fieldY
  | .hFlip => fieldHFlip
  | .vFlip => fieldVFlip
  | .zDepth => fieldZDepth
  | .collisionMask => fieldCollision
  | .paletteOffset => fieldPaletteOffset
  | .widthLog2 => fieldWidth
  | .heightLog2 => fieldHeight

/-- Every layer encode is the common encode step at its field (42_layer_codec R151). -/
theorem exec_encodeLayerOp (f : LayerFieldId) (id : BitVec 8) (val : BitVec 32) (s : State) :
    exec (encodeLayerOp f id val) s = encodeLayerField f.blockField id val s := by
  cases f <;> rfl

/-- Every sprite encode is the common encode step at its field (43_sprite_codec R181). -/
theorem exec_encodeSpriteOp (f : SpriteFieldId) (id : BitVec 8) (val : BitVec 32) (s : State) :
    exec (encodeSpriteOp f id val) s = encodeSpriteField f.blockField id val s := by
  cases f <;> rfl

/-- Settles O46: each operation reads its ports through `layerOf`, `spriteOf`, `byteOf`, `fieldValueOf`, `cellOf` and
`regionSourceUnknown`, and these do not see the ignored bits. -/
theorem ignoredPortBitsDoNotMatter : Obligations.IgnoredPortBitsDoNotMatter := by
  refine ⟨fun id id' off v v' f s hid => ?_, fun id id' off v v' f s hid => ?_,
    fun id id' addr w h depth sel s hid => ?_, fun id addr v v' s => ⟨fun hv => ?_, fun hv => ?_⟩⟩
  · have hlayer := layerOf_congr hid
    refine ⟨?_, ?_, ?_, fun hv => ?_, fun hv => ?_⟩
    · simp only [exec, execLdec, hlayer]
    · simp only [exec, execRlayer, hlayer]
    · simp only [exec, execLrgr, hlayer]
    · simp only [exec, execLrgw, hlayer, byteOf_congr hv]
    · simp only [exec_encodeLayerOp, encodeLayerField, hlayer, fieldValueOf_congr hv]
  · have hsprite := spriteOf_congr hid
    refine ⟨?_, ?_, ?_, fun hv => ?_, fun hv => ?_⟩
    · simp only [exec, execSdec, hsprite]
    · simp only [exec, execRsprite, hsprite]
    · simp only [exec, execSrgr, hsprite]
    · simp only [exec, execSrgw, hsprite, byteOf_congr hv]
    · simp only [exec_encodeSpriteOp, encodeSpriteField, hsprite, fieldValueOf_congr hv]
  · simp only [exec, execRregion, regionSourceUnknown_congr hid]
  · simp only [exec, execWrb, byteOf_congr hv]
  · constructor
    · simp only [exec, execPexp, cellOf_congr hv]
    · simp only [exec, execPsetc, cellOf_congr hv]

/-! ## The palette "set" edit (R108) -/

/-- A cell put on the value port is the cell the port carries. -/
theorem cellOf_ofNat (c : Cell12) : cellOf (BitVec.ofNat 32 c.toNat) = c := by
  have hc := c.isLt
  apply BitVec.eq_of_toNat_eq
  simp only [cellOf, BitVec.extractLsb'_toNat, BitVec.toNat_ofNat, Nat.shiftRight_zero]
  omega

/-- Settles O39: `PQNT` changes the result port only, and `PSETC` stores the cell it returned. -/
theorem paletteSetIsQuantizeThenStore : Obligations.PaletteSetIsQuantizeThenStore := by
  intro id rgba s
  refine ⟨quantize rgba, rfl, ?_⟩
  simp only [pset, runOps, exec, execPqnt, execPsetq, execPsetc, complete_eq, cellOf_ofNat]
  rfl

end Sys2Proof.Machine
end

section
/-! Proofs, family 40_accessor: the range read and its wrap at the top (R120, R121, R127), and the byte reads and
writes of the video memory and of the two register files (R122 to R126). -/

namespace Sys2Proof.Machine

/-! ## Range reads of the video memory -/

/-- A range read is the read of its first bytes and the read that goes on from there (20_memory R51). -/
theorem memRead_append (m : Memory) (addr n k : Nat) :
    memRead m addr (n + k) = memRead m addr n ++ memRead m (addr + n) k := by
  simp only [memRead, List.range_add, List.map_append, List.map_map, Function.comp_def, Nat.add_assoc]

/-- A range that starts at the top is the range that starts at offset 0: the space is circular (10_state R20). -/
theorem memRead_size (m : Memory) (n : Nat) : memRead m Config.vramSize n = memRead m 0 n :=
  List.map_congr_left fun i _ => by rw [Nat.zero_add, Nat.add_comm, vramByte_add_size]

/-- A range that does not cross the top is a plain slice of the memory. -/
theorem memRead_slice (m : Memory) {addr n : Nat} (h : addr + n ≤ Config.vramSize) :
    memRead m addr n = (List.range n).map fun i => Memory.read m (addr + i) :=
  List.map_congr_left fun i hi => by
    have hlt : addr + i < Config.vramSize := by have := List.mem_range.1 hi; omega
    rw [vramByte, Nat.mod_eq_of_lt hlt]

/-- A range that crosses the top is two ranges: up to the top, and on from offset 0 (40_accessor R127). -/
theorem memRead_across_top (m : Memory) {addr n : Nat} (ha : addr ≤ Config.vramSize)
    (h : Config.vramSize ≤ addr + n) :
    memRead m addr n =
      memRead m addr (Config.vramSize - addr) ++ memRead m 0 (addr + n - Config.vramSize) :=
  calc memRead m addr n
    _ = memRead m addr ((Config.vramSize - addr) + (addr + n - Config.vramSize)) := congrArg _ (by omega)
    _ = _ := by rw [memRead_append, Nat.add_sub_cancel' ha, memRead_size]

/-! ## What the reads answer -/

/-- `RDB` answers the byte at its offset: a 17-bit offset needs no reduction (R120). -/
theorem exec_rdb_eq (addr : Offset) (s : State) :
    exec (.rdb addr) s = .next (s.setResult (.byte (Memory.read s.vram addr.toNat))) := by
  rw [← vramByte_offset]; rfl

/-- `RDR` of an admitted length answers the range (R121). -/
theorem exec_rdr_of_le (addr : Offset) {len : BitVec 25} (s : State) (h : len.toNat ≤ Config.vramSize) :
    exec (.rdr addr len) s = .next (s.setResult (.bytes (memRead s.vram addr.toNat len.toNat))) := by
  have hwf : (Instr.rdr addr len).wf = true := decide_eq_true h
  rw [exec_rdr_eq, if_pos hwf, complete_eq]

/-- `RDR` of an admitted length that is given as a number. -/
theorem exec_rdr_ofNat (addr : Offset) {n : Nat} (s : State) (h : n ≤ Config.vramSize) :
    exec (.rdr addr (BitVec.ofNat 25 n)) s = .next (s.setResult (.bytes (memRead s.vram addr.toNat n))) := by
  have hn : (BitVec.ofNat 25 n).toNat = n := Nat.mod_eq_of_lt (h.trans_lt (by decide))
  rw [exec_rdr_of_le addr s (hn.trans_le h), hn]

/-- `RDB` at an address reduced to the space answers the byte there. -/
theorem exec_rdb_mod (a : Nat) (s : State) :
    exec (.rdb (BitVec.ofNat 17 (a % Config.vramSize))) s = .next (s.setResult (.byte (vramByte s.vram a))) := by
  have hmod : (BitVec.ofNat 17 (a % Config.vramSize)).toNat = a % Config.vramSize :=
    Nat.mod_eq_of_lt (Nat.mod_lt _ (by decide))
  rw [exec_rdb_eq, hmod, vramByte]

/-- Settles O1, for every offset the port can carry. -/
theorem readByteReturnsVideoMemory : Obligations.ReadByteReturnsVideoMemory :=
  fun addr s => ⟨rfl, exec_rdb_eq addr s⟩

/-- Settles O2: `RDR` answers a range read, which is a slice, or two slices when it crosses the top. -/
theorem readRangeWrapsPastTheTop : Obligations.ReadRangeWrapsPastTheTop := by
  intro addr len s
  refine ⟨rfl, fun (hlen : len.toNat ≤ Config.vramSize) => ?_, fun hlong => ?_⟩
  · refine ⟨_, exec_rdr_of_le addr s hlen, memRead_length .., fun i hi => memRead_getElem? _ hi,
      fun hin => memRead_slice _ hin, fun hcross => ?_⟩
    have haddr : addr.toNat < Config.vramSize := addr.isLt
    have hlow : addr.toNat + (Config.vramSize - addr.toNat) ≤ Config.vramSize := by omega
    have hhigh : 0 + (addr.toNat + len.toNat - Config.vramSize) ≤ Config.vramSize := by omega
    rw [memRead_across_top _ haddr.le hcross.le, memRead_slice _ hlow, memRead_slice _ hhigh]
    simp only [Nat.zero_add]
  · have hwf : (Instr.rdr addr len).wf = false := decide_eq_false (Nat.not_le.2 hlong)
    exact (exec_rdr_eq addr len s).trans (if_neg (ne_true_of_eq_false hwf))

/-- Settles O3: the split of a range read at the top, its slice below the top, and its elements, each over what
`exec` answers. -/
theorem readRangeConcatenatesAtTheTop : Obligations.ReadRangeConcatenatesAtTheTop := by
  intro addr len s hlen
  refine ⟨fun hcross => ?_, fun hin => ?_, fun i hi => ?_⟩
  · have haddr : addr.toNat < Config.vramSize := addr.isLt
    refine ⟨_, _, exec_rdr_ofNat addr s (Nat.sub_le ..), exec_rdr_ofNat 0#17 s (by omega), ?_⟩
    rw [exec_rdr_of_le addr s hlen, memRead_across_top _ haddr.le hcross.le]; rfl
  · rw [exec_rdr_of_le addr s hlen, memRead_slice _ hin]
  · exact ⟨_, _, exec_rdr_of_le addr s hlen, exec_rdb_mod _ s, memRead_getElem? _ hi⟩

/-! ## What the writes store -/

/-- The byte the value port carries is its remainder by 2^8 (30_encoding R81). -/
theorem byteOf_eq (val : BitVec 32) : byteOf val = BitVec.ofNat 8 val.toNat := rfl

/-- `WRB` writes one byte of the video memory (R122). -/
theorem exec_wrb_eq (addr : Offset) (val : BitVec 32) (s : State) :
    exec (.wrb addr val) s = .next ((s.setVramByte addr (byteOf val)).setResult .nothing) := rfl

/-- Storing the byte that is already there changes nothing in a canonical memory (40_accessor R122). -/
theorem Memory.write_read_self {m : Memory} (hm : Memory.wf m = true) {a : Nat} (ha : a < Config.vramSize) :
    Memory.write m a (Memory.read m a) = m := by
  refine Memory.ext_read (Memory.wf_write hm ha _) hm fun a' => ?_
  rw [Memory.read_write hm]
  split
  · next h => rw [h]
  · rfl

/-- Settles O4: the laws of one write to a canonical memory; `WRB` touches no other field. -/
theorem writeByteChangesOneByte : Obligations.WriteByteChangesOneByte := by
  intro addr val s hs
  refine ⟨rfl, _, exec_wrb_eq addr val s, ?_, fun a ha => ?_, fun hsame => ?_, rfl, rfl, rfl, rfl, rfl⟩
  · exact (Memory.read_write hs _ _ _).trans (if_pos rfl)
  · exact (Memory.read_write hs _ _ _).trans (if_neg ha.symm)
  · calc Memory.write s.vram addr.toNat (byteOf val)
      _ = Memory.write s.vram addr.toNat (Memory.read s.vram addr.toNat) := by rw [hsame, byteOf_eq]
      _ = s.vram := Memory.write_read_self hs addr.isLt

/-! ## Bytes of a layer block -/

/-- An offset below 7 on the port is that byte of the block (30_encoding R81). -/
theorem layerOffset_ofNat (o : Fin 7) : layerOffset (BitVec.ofNat 3 o.val) = o := by
  revert o; decide

/-- An offset below 7 is not the one `LRGR` and `LRGW` refuse (40_accessor R123, R124). -/
theorem ofNat_layerOffset_ne (o : Fin 7) : (BitVec.ofNat 3 o.val != 7#3) = true := by
  revert o; decide

/-- `LRGR` at an offset below 7 answers that byte of the block (R123). -/
theorem exec_lrgr_ofNat (id : BitVec 8) (o : Fin 7) (s : State) :
    exec (.lrgr id (BitVec.ofNat 3 o.val)) s = .next (s.setResult (.byte (s.layer (layerOf id))[o])) := by
  rw [exec_lrgr_eq, Instr.wf, if_pos (ofNat_layerOffset_ne o), complete_eq]
  simp only [layerOffset_ofNat]

/-- `LRGW` at an offset below 7 replaces that byte of the block (R124). -/
theorem exec_lrgw_ofNat (id : BitVec 8) (o : Fin 7) (val : BitVec 32) (s : State) :
    exec (.lrgw id (BitVec.ofNat 3 o.val) val) s =
      .next ((s.setLayer (layerOf id) ((s.layer (layerOf id)).set o.val (byteOf val))).setResult .nothing) := by
  rw [exec_lrgw_eq, Instr.wf, if_pos (ofNat_layerOffset_ne o), complete_eq]
  simp only [layerOffset_ofNat]

/-- Settles O5: offsets 0 to 6 are admitted and name a byte of the block, and offset 7 is not admitted. -/
theorem layerByteReadsAndWrites : Obligations.LayerByteReadsAndWrites := by
  intro id val s l hl
  obtain rfl : l = layerOf id := Fin.ext (hl.trans (layerOf_val id).symm)
  refine ⟨fun _ => ⟨rfl, rfl⟩, fun o => ⟨exec_lrgr_ofNat id o s, _, exec_lrgw_ofNat id o val s, fun l' o' => ?_,
    fun _ => rfl, rfl, rfl, rfl, rfl, rfl⟩, (exec_lrgr_eq id 7#3 s).trans (if_neg Bool.false_ne_true),
    (exec_lrgw_eq id 7#3 val s).trans (if_neg Bool.false_ne_true)⟩
  exact s.layer_setLayer_byte (layerOf id) l' o o' (byteOf val)

/-! ## Bytes of a sprite block -/

/-- `SRGR` answers the byte at its offset: a 3-bit offset is a byte of the 8-byte block (R125). -/
theorem exec_srgr_eq (id : BitVec 8) (off : BitVec 3) (s : State) :
    exec (.srgr id off) s = .next (s.setResult (.byte (s.sprite (spriteOf id))[off.toFin])) := rfl

/-- `SRGW` replaces the byte at its offset (R126). -/
theorem exec_srgw_eq (id : BitVec 8) (off : BitVec 3) (val : BitVec 32) (s : State) :
    exec (.srgw id off val) s =
      .next ((s.setSprite (spriteOf id)
        ((s.sprite (spriteOf id)).set off.toFin.val (byteOf val))).setResult .nothing) := rfl

/-- Settles O6: every sprite id and every offset of the ports names a byte of a block. -/
theorem spriteByteReadsAndWrites : Obligations.SpriteByteReadsAndWrites := by
  intro id off val s k o hk ho
  obtain rfl : k = spriteOf id := Fin.ext (hk.trans (spriteOf_val id).symm)
  obtain rfl : o = off.toFin := Fin.ext ho
  refine ⟨rfl, rfl, exec_srgr_eq id off s, _, exec_srgw_eq id off val s, fun k' o' => ?_, fun _ => rfl,
    rfl, rfl, rfl, rfl, rfl⟩
  exact s.sprite_setSprite_byte (spriteOf id) k' off.toFin o' (byteOf val)

end Sys2Proof.Machine
end

section
/-! Proofs, family 41_unpacker: the depths of the unpacker, the lanes of a byte and how they give the byte back, the
list `unpack` makes, and what `UNPK` answers for any count (R140 to R144). -/

namespace Sys2Proof.Machine

/-! ## Depths -/

/-- A depth code is the binary logarithm of its bits per pixel (R140). -/
theorem bppOf_eq_two_pow (depth : BitVec 2) : bppOf depth = 2 ^ depth.toNat := Nat.one_shiftLeft _

/-- The pixels of a byte fill it: no depth leaves bits over (30_encoding R103). -/
theorem bppOf_mul_pixelsPerByte (depth : BitVec 2) : bppOf depth * pixelsPerByte (bppOf depth) = 8 := by
  rcases bppOf_cases depth with h | h | h | h <;> rw [h] <;> rfl

theorem bppOf_le (depth : BitVec 2) : bppOf depth ≤ 8 :=
  Nat.le_of_dvd (by decide) ⟨_, (bppOf_mul_pixelsPerByte depth).symm⟩

theorem pixelsPerByte_bppOf_pos (depth : BitVec 2) : 0 < pixelsPerByte (bppOf depth) :=
  Nat.pos_of_mul_pos_left (by rw [bppOf_mul_pixelsPerByte]; decide)

/-! ## Lanes -/

/-- A lane as the byte R140 computes. -/
theorem lane_eq_ofNat {bpp : Nat} (h : bpp ≤ 8) (b : Byte) (k : Nat) :
    lane bpp b k = BitVec.ofNat 8 ((b.toNat >>> (8 - bpp * (k + 1))) % 2 ^ bpp) := by
  rw [← lane_toNat h, BitVec.ofNat_toNat, BitVec.setWidth_eq]

/-- A lane is at most the index mask (R144 (a)). -/
theorem lane_le {bpp : Nat} (h : bpp ≤ 8) (b : Byte) (k : Nat) : (lane bpp b k).toNat ≤ 2 ^ bpp - 1 := by
  rw [lane_toNat h]
  exact Nat.le_sub_one_of_lt (Nat.mod_lt _ (Nat.two_pow_pos _))

/-- Putting the next `k` bits below a number with its low `q + k` bits cleared clears only the low `q`. -/
theorem clear_add_next_bits (v q k : Nat) :
    (v >>> (q + k)) <<< (q + k) + ((v >>> q) % 2 ^ k) <<< q = (v >>> q) <<< q := by
  have hsplit : 2 ^ k * (v >>> q / 2 ^ k) + v >>> q % 2 ^ k = v >>> q := Nat.div_add_mod _ _
  calc (v >>> (q + k)) <<< (q + k) + ((v >>> q) % 2 ^ k) <<< q
    _ = (2 ^ k * (v >>> q / 2 ^ k) + v >>> q % 2 ^ k) * 2 ^ q := by
      rw [Nat.shiftRight_add, Nat.shiftRight_eq_div_pow _ k, Nat.shiftLeft_eq, Nat.shiftLeft_eq, Nat.pow_add]; ring
    _ = (v >>> q) <<< q := by rw [hsplit, Nat.shiftLeft_eq]

/-- Repacking the first `k` lanes gives the byte with the bits below them cleared. -/
theorem sum_lanes_eq_clear {bpp : Nat} (b : Byte) : ∀ k : Nat, bpp * k ≤ 8 →
    ((List.range k).map fun j => (lane bpp b j).toNat <<< (8 - bpp * (j + 1))).sum =
      (b.toNat >>> (8 - bpp * k)) <<< (8 - bpp * k)
  | 0, _ => by
    have hb : b.toNat >>> 8 = 0 := Nat.shiftRight_eq_zero _ _ b.isLt
    simp [hb]
  | k + 1, h => by
    have hbpp : bpp ≤ 8 := (Nat.le_mul_of_pos_right bpp k.succ_pos).trans h
    have hk : 8 - bpp * k = (8 - bpp * (k + 1)) + bpp := by rw [Nat.mul_succ] at h ⊢; omega
    rw [List.range_succ, List.map_append, List.sum_append,
      sum_lanes_eq_clear b k ((Nat.mul_le_mul_left bpp k.le_succ).trans h), hk, List.map_singleton,
      List.sum_singleton, lane_toNat hbpp, clear_add_next_bits]

/-- Repacking all the lanes of a byte gives the byte back (R144 (e)). -/
theorem sum_lanes (depth : BitVec 2) (b : Byte) :
    ((List.range (pixelsPerByte (bppOf depth))).map fun k =>
      (lane (bppOf depth) b k).toNat <<< (8 - bppOf depth * (k + 1))).sum = b.toNat := by
  have hfill := bppOf_mul_pixelsPerByte depth
  rw [sum_lanes_eq_clear b _ hfill.le, hfill]; rfl

/-! ## The unpacked list -/

/-- The `i`-th unpacked index, read with a default (R140). -/
theorem unpack_getD {bpp n i : Nat} {src : List Byte} (h : i < min n (src.length * pixelsPerByte bpp)) :
    (unpack bpp n src).getD i 0#8 =
      lane bpp (src.getD (i / pixelsPerByte bpp) 0#8) (i % pixelsPerByte bpp) := by
  rw [List.getD_eq_getElem?_getD, unpack_getElem? h, Option.getD_some]

/-- The indices unpacked from one byte are its lanes. -/
theorem unpack_singleton_getD {bpp k : Nat} (b : Byte) (h : k < pixelsPerByte bpp) :
    (unpack bpp (pixelsPerByte bpp) [b]).getD k 0#8 = lane bpp b k := by
  rw [unpack_getD (by simpa using h), Nat.div_eq_of_lt h, Nat.mod_eq_of_lt h]; rfl

/-- Every unpacked index is a lane of some byte. -/
theorem mem_unpack {bpp n : Nat} {src : List Byte} {x : Byte} (h : x ∈ unpack bpp n src) :
    ∃ b k, x = lane bpp b k := by
  obtain ⟨i, -, rfl⟩ := List.mem_map.1 h
  exact ⟨_, _, rfl⟩

/-- A smaller count unpacks a prefix (R144 (c)). -/
theorem unpack_take (bpp : Nat) {n n' : Nat} (h : n ≤ n') (src : List Byte) :
    unpack bpp n src = (unpack bpp n' src).take n := by
  rw [unpack, unpack, ← List.map_take, List.take_range, ← Nat.min_assoc, Nat.min_eq_left h]

/-- A count the first source does not exceed unpacks all of it and goes on in the second (R144 (d)): index
`src.length × per + j` is in byte `src.length + j div per`, at lane `j mod per`. -/
theorem unpack_append {bpp n : Nat} (src src' : List Byte) (hp : 0 < pixelsPerByte bpp)
    (h : src.length * pixelsPerByte bpp ≤ n) :
    unpack bpp n (src ++ src') =
      unpack bpp (src.length * pixelsPerByte bpp) src ++
        unpack bpp (n - src.length * pixelsPerByte bpp) src' := by
  have hcount : min n ((src ++ src').length * pixelsPerByte bpp) =
      src.length * pixelsPerByte bpp +
        min (n - src.length * pixelsPerByte bpp) (src'.length * pixelsPerByte bpp) := by
    rw [List.length_append, Nat.add_mul]; omega
  rw [unpack, hcount, List.range_add, List.map_append, List.map_map]
  refine congrArg₂ _ ?_ (List.map_congr_left fun j _ => ?_)
  · rw [unpack, Nat.min_self]
    refine List.map_congr_left fun i hi => ?_
    have hbyte : i / pixelsPerByte bpp < src.length := (Nat.div_lt_iff_lt_mul hp).2 (List.mem_range.1 hi)
    rw [List.getD_append _ _ _ _ hbyte]
  · rw [Function.comp_apply, Nat.mul_comm src.length, Nat.mul_add_div hp, Nat.mul_add_mod,
      List.getD_append_right _ _ _ _ (Nat.le_add_right ..), Nat.add_sub_cancel_left]

/-- At 1 bit per pixel, index `i` is bit `7 - (i mod 8)` of byte `i div 8` (R144 (f)). -/
theorem unpack_one_getD {n i : Nat} {src : List Byte} (h : i < min n (src.length * 8)) :
    ((unpack 1 n src).getD i 0#8).toNat = ((src.getD (i / 8) 0#8).toNat >>> (7 - i % 8)) % 2 := by
  have hper : pixelsPerByte 1 = 8 := rfl
  have hshift : 8 - 1 * (i % 8 + 1) = 7 - i % 8 := by omega
  rw [unpack_getD (by rwa [hper]), lane_toNat (by decide), hper, hshift]; rfl

/-! ## What `UNPK` answers -/

/-- `UNPK` of a count in the range of R140 answers the unpacked list. -/
theorem exec_unpk_of_le (depth : BitVec 2) {len : BitVec 25} (src : List Byte) (s : State)
    (h : len.toNat ≤ Config.maxUnpackCount) :
    exec (.unpk depth len src) s = .next (s.setResult (.bytes (unpack (bppOf depth) len.toNat src))) := by
  rw [exec, execUnpk, if_pos h, complete_eq]

/-- `UNPK` of a count above that range answers the free value (log 9). -/
theorem exec_unpk_of_lt (depth : BitVec 2) {len : BitVec 25} (src : List Byte) (s : State)
    (h : Config.maxUnpackCount < len.toNat) :
    exec (.unpk depth len src) s = .next (s.setResult (.bytes (Config.unpkBeyondRange depth len src))) := by
  rw [exec, execUnpk, if_neg (Nat.not_le.2 h), complete_eq]

/-- Settles O8: the byte an index comes from is in the source, because the list ends where the source does (R142). -/
theorem unpackReturnsLanesMostSignificantFirst : Obligations.UnpackReturnsLanesMostSignificantFirst := by
  intro depth len src s hlen
  rw [← bppOf_eq_two_pow]
  refine ⟨rfl, _, exec_unpk_of_le depth src s hlen, unpack_length .., fun i hi => ?_⟩
  rw [unpack_length] at hi
  have hbyte : i / pixelsPerByte (bppOf depth) < src.length :=
    (Nat.div_lt_iff_lt_mul (pixelsPerByte_bppOf_pos depth)).2 (hi.trans_le (Nat.min_le_right ..))
  refine ⟨_, List.getElem?_eq_getElem hbyte, ?_⟩
  rw [unpack_getElem? hi, List.getD_eq_getElem _ _ hbyte, lane_eq_ofNat (bppOf_le depth)]; rfl

/-- Settles O9: each law of R144 from the lemma that states it, over the list `UNPK` answers. -/
theorem unpackLaws : Obligations.UnpackLaws := by
  intro depth src src' n n' b bpp per
  refine ⟨fun len s hlen => exec_unpk_of_le depth src s hlen, fun x hx => ?_, unpack_length ..,
    fun hn => unpack_take bpp hn src, unpack_append src src' (pixelsPerByte_bppOf_pos depth), ?_,
    fun hone i hi => ?_⟩
  · obtain ⟨b, k, rfl⟩ := mem_unpack hx
    exact lane_le (bppOf_le depth) b k
  · refine (congrArg List.sum (List.map_congr_left fun k hk => ?_)).trans (sum_lanes depth b)
    exact congrArg (·.toNat <<< (8 - bpp * (k + 1))) (unpack_singleton_getD b (List.mem_range.1 hk))
  · rw [hone]
    exact unpack_one_getD hi

/-- Settles O10: the count fails the one test `UNPK` makes. -/
theorem unpackBeyondRangeReturnsTheFreeValue : Obligations.UnpackBeyondRangeReturnsTheFreeValue :=
  fun depth _ src s hlen => exec_unpk_of_lt depth src s hlen

end Sys2Proof.Machine
end

section
/-! Proofs, family 42_layer_codec: the common encode step over the fields of a register block (R83, R151), that a layer
encode sets one property (R164), the round trip of a record (R163), and the decode and encodes of layer bytes as the
rules write them (R150, R152 to R162). -/

namespace Sys2Proof.Machine

/-! ## Bits under a mask

A rewrite of a fragment merges `y` into `b` under a mask `k`: `(b &&& ~~~k) ||| (y &&& k)` (R83). -/

/-- No bit is in both of two masks that do not meet. -/
theorem getElem_and_of_disjoint {w i : Nat} {k m : BitVec w} (h : k &&& m = 0#w) (hi : i < w) :
    (k[i] && m[i]) = false := by
  rw [← BitVec.getElem_and, h, BitVec.getElem_zero]

/-- Bits merged in under a mask do not show under a mask that does not meet it. -/
theorem merge_and_of_disjoint {w : Nat} (b y : BitVec w) {k m : BitVec w} (h : k &&& m = 0#w) :
    ((b &&& ~~~k) ||| (y &&& k)) &&& m = b &&& m := by
  ext i hi
  have hbit := getElem_and_of_disjoint h hi
  simp only [BitVec.getElem_and, BitVec.getElem_or, BitVec.getElem_not]
  revert hbit
  cases k[i] <;> cases m[i] <;> simp

/-- Under their own mask the bits merged in are what shows. -/
theorem merge_and_self {w : Nat} (b y k : BitVec w) : ((b &&& ~~~k) ||| (y &&& k)) &&& k = y &&& k := by
  ext i hi
  simp only [BitVec.getElem_and, BitVec.getElem_or, BitVec.getElem_not]
  cases k[i] <;> simp

/-- Of two merges under one mask the last wins. -/
theorem merge_merge {w : Nat} (b x y k : BitVec w) :
    (((b &&& ~~~k) ||| (x &&& k)) &&& ~~~k) ||| (y &&& k) = (b &&& ~~~k) ||| (y &&& k) := by
  ext i hi
  simp only [BitVec.getElem_and, BitVec.getElem_or, BitVec.getElem_not]
  cases k[i] <;> simp

/-- Merges under masks that do not meet commute. -/
theorem merge_comm {w : Nat} (b x y : BitVec w) {k m : BitVec w} (h : k &&& m = 0#w) :
    (((b &&& ~~~k) ||| (x &&& k)) &&& ~~~m) ||| (y &&& m) =
      (((b &&& ~~~m) ||| (y &&& m)) &&& ~~~k) ||| (x &&& k) := by
  ext i hi
  have hbit := getElem_and_of_disjoint h hi
  simp only [BitVec.getElem_and, BitVec.getElem_or, BitVec.getElem_not]
  revert hbit
  cases k[i] <;> cases m[i] <;> simp

/-! ## One fragment -/

/-- A fragment holds none of the bits of a mask in a byte. -/
@[reducible] def Fragment.Avoids {n : Nat} (a : Fragment n) (o : Fin n) (m : Byte) : Prop :=
  a.byte = o → a.mask &&& m = 0#8

/-- Two fragments share no bit. -/
@[reducible] def Fragment.Disjoint {n : Nat} (a b : Fragment n) : Prop := a.Avoids b.byte b.mask

theorem Fragment.Disjoint.symm {n : Nat} {a b : Fragment n} (h : a.Disjoint b) : b.Disjoint a := fun e => by
  rw [BitVec.and_comm]; exact h e.symm

/-- The number of bits of a fragment: those of its mask. -/
def Fragment.width {n : Nat} (a : Fragment n) : Nat := (List.range 8).countP a.mask.getLsbD

/-- The mask of a fragment is a run of ones from its shift up, inside the byte (30_encoding R83). -/
@[reducible] def Fragment.Sound {n : Nat} (a : Fragment n) : Prop :=
  a.shift + a.width ≤ 8 ∧ a.mask = BitVec.ofNat 8 ((2 ^ a.width - 1) <<< a.shift)

/-- A rewrite leaves the bits its fragment avoids (42_layer_codec R151). -/
theorem Fragment.put_and_of_avoids {n : Nat} {a : Fragment n} {o : Fin n} {m : Byte} (h : a.Avoids o m) (x : Nat)
    (B : Vector Byte n) : (a.put x B)[o] &&& m = B[o] &&& m := by
  rw [Fragment.put_getElem]
  split
  · next ho => exact merge_and_of_disjoint _ _ (h ho)
  · rfl

/-- A block is its bytes. -/
theorem block_ext {n : Nat} {B C : Vector Byte n} (h : ∀ o : Fin n, B[o] = C[o]) : B = C :=
  Vector.ext fun i hi => h ⟨i, hi⟩

/-- A fragment's value depends on its own bits only. -/
theorem Fragment.value_congr {n : Nat} {b : Fragment n} {B C : Vector Byte n}
    (h : C[b.byte] &&& b.mask = B[b.byte] &&& b.mask) : b.value C = b.value B := by
  rw [Fragment.value, Fragment.value, h]

/-- Rewriting one fragment twice leaves the last value. -/
theorem Fragment.put_put {n : Nat} (a : Fragment n) (x y : Nat) (B : Vector Byte n) :
    a.put y (a.put x B) = a.put y B := by
  refine block_ext fun o => ?_
  simp only [Fragment.put_getElem]
  split
  · exact merge_merge ..
  · rfl

/-- Rewrites of fragments that share no bit commute. -/
theorem Fragment.put_comm {n : Nat} {a b : Fragment n} (h : a.Disjoint b) (x y : Nat) (B : Vector Byte n) :
    b.put y (a.put x B) = a.put x (b.put y B) := by
  refine block_ext fun o => ?_
  simp only [Fragment.put_getElem]
  split
  · next hb =>
    split
    · next ha => exact merge_comm _ _ _ (h (ha.trans hb.symm))
    · rfl
  · rfl

/-- A value that fits its fragment is not cut by the mask. -/
theorem Fragment.Sound.ofNat_and_mask {n : Nat} {a : Fragment n} (h : a.Sound) {x : Nat} (hx : x < 2 ^ a.width) :
    BitVec.ofNat 8 (x <<< a.shift) &&& a.mask = BitVec.ofNat 8 (x <<< a.shift) := by
  rw [h.2, ← BitVec.ofNat_and, ← Nat.shiftLeft_and_distrib, Nat.and_two_pow_sub_one_eq_mod, Nat.mod_eq_of_lt hx]

/-- A value that fits its fragment fits the byte at the fragment's shift. -/
theorem Fragment.Sound.shiftLeft_lt {n : Nat} {a : Fragment n} (h : a.Sound) {x : Nat} (hx : x < 2 ^ a.width) :
    x <<< a.shift < 2 ^ 8 :=
  calc x <<< a.shift = x * 2 ^ a.shift := Nat.shiftLeft_eq ..
    _ < 2 ^ a.width * 2 ^ a.shift := Nat.mul_lt_mul_of_pos_right hx (Nat.two_pow_pos _)
    _ = 2 ^ (a.shift + a.width) := by rw [← Nat.pow_add, Nat.add_comm]
    _ ≤ 2 ^ 8 := Nat.pow_le_pow_right (by decide) h.1

/-- A fragment gives back the value put into it, when the value fits. -/
theorem Fragment.Sound.value_put {n : Nat} {a : Fragment n} (h : a.Sound) {x : Nat} (hx : x < 2 ^ a.width)
    (B : Vector Byte n) : a.value (a.put x B) = x := by
  rw [Fragment.value, Fragment.put_getElem, if_pos rfl, merge_and_self, h.ofNat_and_mask hx,
    BitVec.toNat_ushiftRight, BitVec.toNat_ofNat, Nat.mod_eq_of_lt (h.shiftLeft_lt hx), Nat.shiftLeft_shiftRight]

/-- The rewrite of a fragment whose value fits: its bits cleared, and the value shifted into place. -/
theorem Fragment.Sound.put_eq_set {n : Nat} {a : Fragment n} (h : a.Sound) {x : Nat} (hx : x < 2 ^ a.width)
    (B : Vector Byte n) :
    a.put x B = B.set a.byte.val ((B[a.byte] &&& ~~~a.mask) ||| BitVec.ofNat 8 (x <<< a.shift)) := by
  rw [Fragment.put, h.ofNat_and_mask hx]

/-! ## One field -/

/-- The fragments of a field (30_encoding R83). -/
def BlockField.fragments {n : Nat} (f : BlockField n) : List (Fragment n) := f.low :: f.high.toList

/-- The number of bits of a stored value. -/
def BlockField.width {n : Nat} (f : BlockField n) : Nat := f.low.width + (f.high.elim 0 Fragment.width)

/-- A field holds none of the bits of a mask in a byte. -/
@[reducible] def BlockField.Avoids {n : Nat} (f : BlockField n) (o : Fin n) (m : Byte) : Prop :=
  ∀ a ∈ f.fragments, a.Avoids o m

/-- Two fields share no bit. -/
@[reducible] def BlockField.Disjoint {n : Nat} (f g : BlockField n) : Prop :=
  ∀ b ∈ g.fragments, f.Avoids b.byte b.mask

/-- The row of a field is in order (R83): its fragments are runs of ones that share no bit, the low one as wide as the
row says, and the stored value of every property from `pmin` to `pmax` fits them. -/
@[reducible] def BlockField.Sound {n : Nat} (f : BlockField n) : Prop :=
  f.low.Sound ∧ (∀ a ∈ f.high, a.Sound ∧ f.low.width = f.lowWidth ∧ f.low.Disjoint a) ∧
    f.pmin ≤ f.pmax ∧ 0 < f.scale ∧ f.bias * f.scale ≤ f.pmin ∧ f.pmax / f.scale - f.bias < 2 ^ f.width

/-- The property a block holds after an encode: the requested value clamped and aligned (R151). -/
def BlockField.imageOf {n : Nat} (f : BlockField n) (v : Nat) : Nat := clamp v f.pmin f.pmax / f.scale * f.scale

theorem BlockField.encode_one {n : Nat} {f : BlockField n} (hf : f.high = none) (v : Nat) (B : Vector Byte n) :
    f.encode v B = f.low.put (f.storedOf v) B := by
  rw [BlockField.encode, hf]

theorem BlockField.encode_two {n : Nat} {f : BlockField n} {a : Fragment n} (hf : f.high = some a) (v : Nat)
    (B : Vector Byte n) :
    f.encode v B = a.put (f.storedOf v >>> f.lowWidth) (f.low.put (f.storedOf v % 2 ^ f.lowWidth) B) := by
  rw [BlockField.encode, hf]

theorem BlockField.mem_fragments {n : Nat} {f : BlockField n} {a : Fragment n} :
    a ∈ f.fragments ↔ a = f.low ∨ f.high = some a := by
  simp [BlockField.fragments]

theorem BlockField.low_mem_fragments {n : Nat} (f : BlockField n) : f.low ∈ f.fragments := mem_fragments.2 (.inl rfl)

/-- An encode is a series of rewrites of the field's fragments: what every such rewrite keeps, the encode keeps. -/
theorem BlockField.encode_keeps {n : Nat} {f : BlockField n} {P : Vector Byte n → Prop}
    (h : ∀ a ∈ f.fragments, ∀ x C, P C → P (a.put x C)) (v : Nat) {B : Vector Byte n} (hB : P B) :
    P (f.encode v B) := by
  have hlow := h f.low f.low_mem_fragments
  cases hf : f.high with
  | none => rw [encode_one hf]; exact hlow _ _ hB
  | some a => rw [encode_two hf]; exact h a (mem_fragments.2 (.inr hf)) _ _ (hlow _ _ hB)

/-- An encode leaves every bit that is not its field's (R151, R164). -/
theorem BlockField.encode_and_of_avoids {n : Nat} {f : BlockField n} {o : Fin n} {m : Byte} (h : f.Avoids o m)
    (v : Nat) (B : Vector Byte n) : (f.encode v B)[o] &&& m = B[o] &&& m :=
  encode_keeps (P := fun C => C[o] &&& m = B[o] &&& m)
    (fun a ha x C hC => (Fragment.put_and_of_avoids (h a ha) x C).trans hC) v rfl

/-- The decode of a field depends on its fragments only. -/
theorem BlockField.decode_congr {n : Nat} {f : BlockField n} {B C : Vector Byte n}
    (h : ∀ a ∈ f.fragments, a.value C = a.value B) : f.decode C = f.decode B := by
  have hlow := h f.low f.low_mem_fragments
  rw [BlockField.decode, BlockField.decode]
  cases hf : f.high with
  | none => simp only [BlockField.stored, hf, hlow]
  | some a => simp only [BlockField.stored, hf, hlow, h a (mem_fragments.2 (.inr hf))]

/-- An encode leaves the decoded value of a field that shares no bit with its own (R164). -/
theorem BlockField.decode_encode_of_disjoint {n : Nat} {f g : BlockField n} (h : f.Disjoint g) (v : Nat)
    (B : Vector Byte n) : g.decode (f.encode v B) = g.decode B :=
  decode_congr fun b hb => Fragment.value_congr (encode_and_of_avoids (h b hb) v B)

/-- An encode commutes with the rewrite of a fragment that shares no bit with its field. -/
theorem BlockField.put_encode_comm {n : Nat} {f : BlockField n} {b : Fragment n} (h : f.Avoids b.byte b.mask)
    (v y : Nat) (B : Vector Byte n) : b.put y (f.encode v B) = f.encode v (b.put y B) := by
  have hlow : f.low.Disjoint b := h f.low f.low_mem_fragments
  cases hf : f.high with
  | none => rw [encode_one hf, encode_one hf, Fragment.put_comm hlow]
  | some a =>
    have ha : a.Disjoint b := h a (mem_fragments.2 (.inr hf))
    rw [encode_two hf, encode_two hf, Fragment.put_comm ha, Fragment.put_comm hlow]

/-- Encodes of fields that share no bit commute (R164). -/
theorem BlockField.encode_comm {n : Nat} {f g : BlockField n} (h : f.Disjoint g) (v w : Nat) (B : Vector Byte n) :
    g.encode w (f.encode v B) = f.encode v (g.encode w B) := by
  have hlow := h g.low g.low_mem_fragments
  cases hg : g.high with
  | none => rw [encode_one hg, encode_one hg, put_encode_comm hlow]
  | some b =>
    have hb := h b (mem_fragments.2 (.inr hg))
    rw [encode_two hg, encode_two hg, put_encode_comm hlow, put_encode_comm hb]

/-- A field in order has its low fragment in order. -/
theorem BlockField.Sound.low {n : Nat} {f : BlockField n} (h : f.Sound) : f.low.Sound := h.1

/-- A field in order has its high fragment in order and apart from the low one. -/
theorem BlockField.Sound.high {n : Nat} {f : BlockField n} {a : Fragment n} (h : f.Sound) (hf : f.high = some a) :
    a.Sound ∧ f.low.width = f.lowWidth ∧ f.low.Disjoint a := h.2.1 a hf

/-- Of two encodes of one field the last wins (R164). -/
theorem BlockField.Sound.encode_encode {n : Nat} {f : BlockField n} (h : f.Sound) (v w : Nat) (B : Vector Byte n) :
    f.encode w (f.encode v B) = f.encode w B := by
  cases hf : f.high with
  | none => simp only [encode_one hf, Fragment.put_put]
  | some a =>
    obtain ⟨-, -, hdisjoint⟩ := h.high hf
    simp only [encode_two hf]
    rw [← Fragment.put_comm hdisjoint, Fragment.put_put, Fragment.put_put]

/-- A clamp with its bounds in order (00_scope R9). -/
theorem clamp_eq_max_min {v lo hi : Nat} (h : lo ≤ hi) : clamp v lo hi = max lo (min v hi) := by
  unfold clamp; split_ifs <;> omega

theorem clamp_zero (v hi : Nat) : clamp v 0 hi = min v hi := by
  rw [clamp_eq_max_min hi.zero_le, Nat.zero_max]

theorem clamp_le {v lo hi : Nat} (h : lo ≤ hi) : clamp v lo hi ≤ hi := by
  rw [clamp_eq_max_min h]; exact Nat.max_le.2 ⟨h, Nat.min_le_right ..⟩

/-- The stored value of an encode fits the bits of its field. -/
theorem BlockField.Sound.storedOf_lt {n : Nat} {f : BlockField n} (h : f.Sound) (v : Nat) :
    f.storedOf v < 2 ^ f.width := by
  obtain ⟨-, -, hrange, -, -, hfits⟩ := h
  exact (Nat.sub_le_sub_right (Nat.div_le_div_right (clamp_le hrange)) f.bias).trans_lt hfits

/-- The stored value of a field with one fragment fits the fragment. -/
theorem BlockField.Sound.storedOf_lt_of_one {n : Nat} {f : BlockField n} (h : f.Sound) (hf : f.high = none) (v : Nat) :
    f.storedOf v < 2 ^ f.low.width := by
  simpa only [BlockField.width, hf, Option.elim_none, Nat.add_zero] using h.storedOf_lt v

/-- The two parts of a stored value fit their fragments. -/
theorem BlockField.Sound.parts_lt_of_two {n : Nat} {f : BlockField n} {a : Fragment n} (h : f.Sound)
    (hf : f.high = some a) (v : Nat) :
    f.storedOf v % 2 ^ f.lowWidth < 2 ^ f.low.width ∧ f.storedOf v >>> f.lowWidth < 2 ^ a.width := by
  have hs := h.storedOf_lt v
  obtain ⟨-, hwidth, -⟩ := h.high hf
  rw [hwidth]
  refine ⟨Nat.mod_lt _ (Nat.two_pow_pos _), ?_⟩
  rw [Nat.shiftRight_eq_div_pow, Nat.div_lt_iff_lt_mul (Nat.two_pow_pos _), ← Nat.pow_add, Nat.add_comm]
  simpa only [BlockField.width, hf, hwidth, Option.elim_some] using hs

/-- After an encode the field holds the stored value of the requested one. -/
theorem BlockField.Sound.stored_encode {n : Nat} {f : BlockField n} (h : f.Sound) (v : Nat) (B : Vector Byte n) :
    f.stored (f.encode v B) = f.storedOf v := by
  cases hf : f.high with
  | none => simp only [BlockField.stored, encode_one hf, hf, h.low.value_put (h.storedOf_lt_of_one hf v)]
  | some a =>
    obtain ⟨ha, -, hdisjoint⟩ := h.high hf
    obtain ⟨hx, hy⟩ := h.parts_lt_of_two hf v
    simp only [BlockField.stored, encode_two hf, hf, ha.value_put hy]
    rw [Fragment.value_congr (Fragment.put_and_of_avoids hdisjoint.symm _ _), h.low.value_put hx, Nat.or_comm,
      ← Nat.shiftLeft_add_eq_or_of_lt (Nat.mod_lt _ (Nat.two_pow_pos _)), Nat.shiftLeft_eq,
      Nat.shiftRight_eq_div_pow, Nat.div_add_mod']

/-- The encode of a field with one fragment: its bits cleared, and the stored value shifted into place (R151). -/
theorem BlockField.Sound.encode_one_eq_set {n : Nat} {f : BlockField n} (h : f.Sound) (hf : f.high = none) (v : Nat)
    (B : Vector Byte n) :
    f.encode v B = B.set f.low.byte.val
      ((B[f.low.byte] &&& ~~~f.low.mask) ||| BitVec.ofNat 8 (f.storedOf v <<< f.low.shift)) := by
  rw [encode_one hf, h.low.put_eq_set (h.storedOf_lt_of_one hf v)]

/-- The encode of a field with fragments in two bytes: each byte has the field's bits cleared, and its part of the
stored value shifted into place (R151). -/
theorem BlockField.Sound.encode_two_eq_set {n : Nat} {f : BlockField n} {a : Fragment n} (h : f.Sound)
    (hf : f.high = some a) (hbyte : f.low.byte ≠ a.byte) (v : Nat) (B : Vector Byte n) :
    f.encode v B =
      (B.set f.low.byte.val ((B[f.low.byte] &&& ~~~f.low.mask) |||
        BitVec.ofNat 8 ((f.storedOf v % 2 ^ f.lowWidth) <<< f.low.shift))).set a.byte.val
        ((B[a.byte] &&& ~~~a.mask) ||| BitVec.ofNat 8 ((f.storedOf v >>> f.lowWidth) <<< a.shift)) := by
  obtain ⟨ha, -⟩ := h.high hf
  obtain ⟨hx, hy⟩ := h.parts_lt_of_two hf v
  rw [encode_two hf, ha.put_eq_set hy, Fragment.put_getElem, if_neg hbyte, h.low.put_eq_set hx]

/-- A field decodes to the clamped, aligned value after its encode (R151). -/
theorem BlockField.Sound.decode_encode {n : Nat} {f : BlockField n} (h : f.Sound) (v : Nat) (B : Vector Byte n) :
    f.decode (f.encode v B) = f.imageOf v := by
  rw [BlockField.decode, h.stored_encode]
  obtain ⟨-, -, hrange, hscale, hbias, -⟩ := h
  have hle : f.bias ≤ clamp v f.pmin f.pmax / f.scale :=
    (Nat.le_div_iff_mul_le hscale).2 (hbias.trans (le_clamp hrange))
  rw [BlockField.storedOf, Nat.sub_add_cancel hle, BlockField.imageOf]

/-! ## The eleven fields of a layer -/

/-- The fields in the order of their ids (R90), which is the order of `LENCALL` (R108). -/
def LayerFieldId.all : List LayerFieldId :=
  [.colorDepthCode, .bitmapMode, .textMode256Color, .mapWidthLog2, .mapHeightLog2, .mapBase, .tileBase, .tileWidthLog2,
    .tileHeightLog2, .hScroll, .vScroll]

theorem LayerFieldId.mem_all (f : LayerFieldId) : f ∈ all := by cases f <;> decide

/-- The property of a field as a number, a flag as 0 or 1. -/
def LayerFieldId.get : LayerFieldId → LayerProperties → Nat
  | .colorDepthCode, p => p.colorDepthCode
  | .bitmapMode, p => p.bitmapMode.toNat
  | .textMode256Color, p => p.textMode256Color.toNat
  | .mapWidthLog2, p => p.mapWidthLog2
  | .mapHeightLog2, p => p.mapHeightLog2
  | .mapBase, p => p.mapBase
  | .tileBase, p => p.tileBase
  | .tileWidthLog2, p => p.tileWidthLog2
  | .tileHeightLog2, p => p.tileHeightLog2
  | .hScroll, p => p.hScroll
  | .vScroll, p => p.vScroll

/-- Each row of R90 is in order. -/
theorem LayerFieldId.blockField_sound (f : LayerFieldId) : f.blockField.Sound :=
  (show ∀ f ∈ all, f.blockField.Sound by decide) f f.mem_all

/-- Different rows of R90 share no bit (R164). -/
theorem LayerFieldId.blockField_disjoint {f g : LayerFieldId} (h : f ≠ g) : f.blockField.Disjoint g.blockField :=
  (show ∀ f ∈ all, ∀ g ∈ all, f ≠ g → f.blockField.Disjoint g.blockField by decide) f f.mem_all g g.mem_all h

/-- No row of R90 holds a bit of the unused nibbles of bytes 4 and 6 (R104). -/
theorem LayerFieldId.blockField_avoids_unused (f : LayerFieldId) :
    f.blockField.Avoids 4 0xF0#8 ∧ f.blockField.Avoids 6 0xF0#8 :=
  (show ∀ f ∈ all, f.blockField.Avoids 4 0xF0#8 ∧ f.blockField.Avoids 6 0xF0#8 by decide) f f.mem_all

/-- The decode of R150, field by field, is the decode of the field table. -/
theorem LayerFieldId.get_decodeLayer (f : LayerFieldId) (B : LayerBlock) :
    f.get (decodeLayer B) = f.blockField.decode B := by
  obtain ⟨hdepth, hbitmap, htext, hmapw, hmaph, hmap, htile, htilew, htileh, hh, hv⟩ :=
    layerDecodeAgreesWithFieldTable B
  cases f <;> assumption

/-- A record is its eleven properties. -/
theorem LayerProperties.ext_get {p q : LayerProperties} (h : ∀ f : LayerFieldId, f.get p = f.get q) : p = q := by
  have hflag := Function.LeftInverse.injective Bool.ofNat_toNat
  have hbitmap : p.bitmapMode = q.bitmapMode := hflag (h .bitmapMode)
  have htext : p.textMode256Color = q.textMode256Color := hflag (h .textMode256Color)
  obtain ⟨_, _, _, _, _, _, _, _, _, _, _⟩ := p
  obtain ⟨_, _, _, _, _, _, _, _, _, _, _⟩ := q
  rw [LayerProperties.mk.injEq]
  exact ⟨h .colorDepthCode, hbitmap, htext, h .mapBase, h .mapWidthLog2, h .mapHeightLog2, h .tileBase,
    h .tileWidthLog2, h .tileHeightLog2, h .hScroll, h .vScroll⟩

/-- A flag set from a number is that number, at most 1 (R153, R154). -/
theorem toNat_decide_ne_zero (v : Nat) : (decide (v ≠ 0)).toNat = min v 1 := by
  by_cases h : v = 0
  · simp [h]
  · simp [h, Nat.min_eq_right (Nat.one_le_iff_ne_zero.2 h)]

/-- The property a field's update sets is the one its encode leaves. -/
theorem LayerFieldId.get_update_self (f : LayerFieldId) (v : Nat) (p : LayerProperties) :
    f.get (f.update v p) = f.blockField.imageOf v := by
  cases f
  case bitmapMode | textMode256Color =>
    exact (toNat_decide_ne_zero v).trans (by simp [BlockField.imageOf, blockField, fieldBitmap, fieldT256c, clamp_zero])
  all_goals
    simp [get, update, BlockField.imageOf, blockField, clamp_zero, fieldDepth, fieldMapWidth, fieldMapHeight,
      fieldMapBase, fieldTileBase, fieldTileWidth, fieldTileHeight, fieldHScroll, fieldVScroll]

/-- An update leaves every other property. -/
theorem LayerFieldId.get_update_of_ne {f g : LayerFieldId} (h : f ≠ g) (v : Nat) (p : LayerProperties) :
    g.get (f.update v p) = g.get p := by
  cases f <;> cases g <;> simp [get, update] at h ⊢

/-- A layer encode sets its own property to the clamped, aligned value, and no other (R151, R164). -/
theorem decodeLayer_encode (f : LayerFieldId) (v : Nat) (B : LayerBlock) :
    decodeLayer (f.blockField.encode v B) = f.update v (decodeLayer B) := by
  refine LayerProperties.ext_get fun g => ?_
  rw [g.get_decodeLayer]
  by_cases h : f = g
  · subst h
    rw [f.blockField_sound.decode_encode, f.get_update_self]
  · rw [BlockField.decode_encode_of_disjoint (LayerFieldId.blockField_disjoint h), LayerFieldId.get_update_of_ne h,
      g.get_decodeLayer]

/-! ## Layer encodes one after another -/

/-- The operations that encode a list of fields and values in a layer. -/
def encodeLayerOps (id : BitVec 8) (qs : List (LayerFieldId × BitVec 32)) : List Instr :=
  qs.map fun q => encodeLayerOp q.1 id q.2

/-- What those encodes leave of a block. -/
def encodeLayerAll (qs : List (LayerFieldId × BitVec 32)) (B : LayerBlock) : LayerBlock :=
  qs.foldl (fun C q => q.1.blockField.encode (fieldValueOf q.2) C) B

/-- What those encodes leave of a record. -/
def updateLayerAll (qs : List (LayerFieldId × BitVec 32)) (p : LayerProperties) : LayerProperties :=
  qs.foldl (fun r q => q.1.update (fieldValueOf q.2) r) p

/-- A layer encode completes with its field rewritten (R151). -/
theorem exec_encodeLayerOp_eq (f : LayerFieldId) (id : BitVec 8) (val : BitVec 32) (s : State) :
    exec (encodeLayerOp f id val) s =
      .next ((s.setLayer (layerOf id) (f.blockField.encode (fieldValueOf val) (s.layer (layerOf id)))).setResult
        .nothing) := by
  rw [exec_encodeLayerOp, encodeLayerField_eq]

/-- Layer encodes one after another, at least one, complete, and only the layer's block and the result port change. -/
theorem runOps_encodeLayerOps (id : BitVec 8) {qs : List (LayerFieldId × BitVec 32)} (h : qs ≠ []) (s : State) :
    runOps (encodeLayerOps id qs) s =
      .next ((s.setLayer (layerOf id) (encodeLayerAll qs (s.layer (layerOf id)))).setResult .nothing) := by
  induction qs generalizing s with
  | nil => exact absurd rfl h
  | cons q qs ih =>
    rw [encodeLayerOps, List.map_cons, runOps, exec_encodeLayerOp_eq]
    cases qs with
    | nil => rfl
    | cons r qs =>
      refine (ih (List.cons_ne_nil r qs) _).trans ?_
      simp [encodeLayerAll]

/-- Lists of layer encodes that leave the same of every block have the same outcome. -/
theorem runOps_encodeLayerOps_congr (id : BitVec 8) {qs rs : List (LayerFieldId × BitVec 32)} (hqs : qs ≠ [])
    (hrs : rs ≠ []) (h : ∀ B, encodeLayerAll qs B = encodeLayerAll rs B) (s : State) :
    runOps (encodeLayerOps id qs) s = runOps (encodeLayerOps id rs) s := by
  rw [runOps_encodeLayerOps id hqs, runOps_encodeLayerOps id hrs, h]

/-- The decode of a block after encodes is the record after the updates. -/
theorem decodeLayer_encodeLayerAll (qs : List (LayerFieldId × BitVec 32)) (B : LayerBlock) :
    decodeLayer (encodeLayerAll qs B) = updateLayerAll qs (decodeLayer B) := by
  induction qs generalizing B with
  | nil => rfl
  | cons q qs ih => exact (ih _).trans (congrArg (updateLayerAll qs) (decodeLayer_encode ..))

/-- Encodes leave the unused bits of a block. -/
theorem encodeLayerAll_unused (qs : List (LayerFieldId × BitVec 32)) (B : LayerBlock) :
    (encodeLayerAll qs B)[4] &&& 0xF0#8 = B[4] &&& 0xF0#8 ∧
    (encodeLayerAll qs B)[6] &&& 0xF0#8 = B[6] &&& 0xF0#8 := by
  induction qs generalizing B with
  | nil => exact ⟨rfl, rfl⟩
  | cons q qs ih =>
    obtain ⟨h4, h6⟩ := q.1.blockField_avoids_unused
    obtain ⟨ih4, ih6⟩ := ih (q.1.blockField.encode (fieldValueOf q.2) B)
    exact ⟨ih4.trans (BlockField.encode_and_of_avoids h4 ..), ih6.trans (BlockField.encode_and_of_avoids h6 ..)⟩

/-- The layer a port names, from its number (30_encoding R81). -/
theorem eq_layerOf {id : BitVec 8} {l : Fin 2} (h : l.val = id.toNat % 2) : l = layerOf id :=
  Fin.ext (h.trans (layerOf_val id).symm)

/-- Settles O17: one encode sets one property, and encodes commute or replace one another on the block, since the
fields of R90 share no bit. -/
theorem layerEncodeSetsOnePropertyOnly : Obligations.LayerEncodeSetsOnePropertyOnly := by
  intro f id val s l hl
  obtain rfl := eq_layerOf hl
  obtain ⟨h4, h6⟩ := f.blockField_avoids_unused
  refine ⟨⟨_, exec_encodeLayerOp_eq f id val s, ?_, ?_, ?_, fun l' hne => ?_, rfl, rfl, rfl, rfl, rfl⟩,
    fun g w => ⟨fun hne => ?_, ?_⟩⟩
  · rw [State.setResult_layer, State.layer_setLayer_same, decodeLayer_encode, fieldValueOf_eq]
  · rw [State.setResult_layer, State.layer_setLayer_same]
    exact BlockField.encode_and_of_avoids h4 ..
  · rw [State.setResult_layer, State.layer_setLayer_same]
    exact BlockField.encode_and_of_avoids h6 ..
  · rw [State.setResult_layer, State.layer_setLayer, if_neg hne.symm]
  · have hcomm (B : LayerBlock) : encodeLayerAll [(f, val), (g, w)] B = encodeLayerAll [(g, w), (f, val)] B :=
      BlockField.encode_comm (LayerFieldId.blockField_disjoint hne) ..
    exact runOps_encodeLayerOps_congr id (List.cons_ne_nil _ _) (List.cons_ne_nil _ _) hcomm s
  · have hlast (B : LayerBlock) : encodeLayerAll [(f, val), (f, w)] B = encodeLayerAll [(f, w)] B :=
      f.blockField_sound.encode_encode ..
    exact runOps_encodeLayerOps_congr id (List.cons_ne_nil _ _) (List.cons_ne_nil _ _) hlast s

/-! ## The round trip of a record (R163) -/

/-- `LENCALL` of a record as fields and values (30_encoding R108). -/
def LayerProperties.encodes (p : LayerProperties) : List (LayerFieldId × BitVec 32) :=
  LayerFieldId.all.map fun f => (f, BitVec.ofNat 32 (f.get p))

theorem LayerProperties.encodes_ne_nil (p : LayerProperties) : p.encodes ≠ [] := List.cons_ne_nil _ _

theorem lencall_eq (id : BitVec 8) (p : LayerProperties) : lencall id p = encodeLayerOps id p.encodes := rfl

/-- A value that fits the port's 17 bits is the value an encode reads (30_encoding R81). -/
theorem fieldValueOf_ofNat {x : Nat} (h : x < 2 ^ 17) : fieldValueOf (BitVec.ofNat 32 x) = x := by
  rw [fieldValueOf_eq, BitVec.toNat_ofNat]
  omega

theorem fieldValueOf_toNat (b : Bool) : fieldValueOf (BitVec.ofNat 32 b.toNat) = b.toNat :=
  fieldValueOf_ofNat (b.toNat_lt.trans (by decide))

/-- The eleven updates replace every property, so nothing of the record they start from is left. -/
theorem updateLayerAll_encodes {p : LayerProperties} (h : p.fits) (q : LayerProperties) :
    updateLayerAll p.encodes q = p.image := by
  obtain ⟨hdepth, hmap, hmapw, hmaph, htile, htilew, htileh, hhscroll, hvscroll⟩ := h
  simp [updateLayerAll, LayerProperties.encodes, LayerFieldId.all, LayerFieldId.get, LayerFieldId.update,
    LayerProperties.image, fieldValueOf_toNat, fieldValueOf_ofNat hdepth, fieldValueOf_ofNat hmap,
    fieldValueOf_ofNat hmapw, fieldValueOf_ofNat hmaph, fieldValueOf_ofNat htile, fieldValueOf_ofNat htilew,
    fieldValueOf_ofNat htileh, fieldValueOf_ofNat hhscroll, fieldValueOf_ofNat hvscroll]

/-- The fields of a valid record, each in its range (10_state R31, R33). -/
theorem LayerProperties.valid_iff (p : LayerProperties) :
    p.valid = true ↔ p.colorDepthCode ≤ 3 ∧ (p.mapBase ≤ 0x1FE00 ∧ p.mapBase % 512 = 0) ∧
      (5 ≤ p.mapWidthLog2 ∧ p.mapWidthLog2 ≤ 8) ∧ (5 ≤ p.mapHeightLog2 ∧ p.mapHeightLog2 ≤ 8) ∧
      (p.tileBase ≤ 0x1F800 ∧ p.tileBase % 2048 = 0) ∧ (3 ≤ p.tileWidthLog2 ∧ p.tileWidthLog2 ≤ 4) ∧
      (3 ≤ p.tileHeightLog2 ∧ p.tileHeightLog2 ≤ 4) ∧ p.hScroll ≤ 4095 ∧ p.vScroll ≤ 4095 := by
  simp only [valid, Bool.and_eq_true, decide_eq_true_eq, and_assoc]

/-- A valid record fits the port. -/
theorem LayerProperties.fits_of_valid {p : LayerProperties} (h : p.valid = true) : p.fits := by
  rw [valid_iff] at h
  unfold fits
  omega

/-- A valid record is its own clamped, aligned image (R163). -/
theorem LayerProperties.image_of_valid {p : LayerProperties} (h : p.valid = true) : p.image = p := by
  rw [valid_iff] at h
  rw [image, LayerProperties.mk.injEq]
  simp only [clamp_eq_max_min, Nat.reduceLeDiff, true_and]
  omega

/-- `LDEC` returns the decoded record of its layer and the values derived from it (R150). -/
theorem exec_ldec_eq (id : BitVec 8) (s : State) :
    exec (.ldec id) s = .next (s.setResult (.layer (decodeLayer (s.layer (layerOf id)))
      (deriveLayer (decodeLayer (s.layer (layerOf id)))))) := rfl

/-- `LENCALL` completes and leaves, whatever stood there, a block that decodes to the image of the record, with its
unused bits kept (R163). -/
theorem runOps_lencall (id : BitVec 8) (p : LayerProperties) (s : State) :
    ∃ C : LayerBlock, runOps (lencall id p) s = .next ((s.setLayer (layerOf id) C).setResult .nothing) ∧
      (p.fits → decodeLayer C = p.image) ∧
      C[4] &&& 0xF0#8 = (s.layer (layerOf id))[4] &&& 0xF0#8 ∧
      C[6] &&& 0xF0#8 = (s.layer (layerOf id))[6] &&& 0xF0#8 := by
  refine ⟨encodeLayerAll p.encodes (s.layer (layerOf id)), ?_, fun hfits => ?_, encodeLayerAll_unused ..⟩
  · rw [lencall_eq, runOps_encodeLayerOps id p.encodes_ne_nil]
  · rw [decodeLayer_encodeLayerAll, updateLayerAll_encodes hfits]

/-- Settles O18: `LENCALL` leaves the image of the record, and a valid record is its own image. -/
theorem layerRoundTrip : Obligations.LayerRoundTrip := by
  intro id P s l hl
  obtain rfl := eq_layerOf hl
  obtain ⟨C, hrun, himage, h4, h6⟩ := runOps_lencall id P s
  have hblock : ((s.setLayer (layerOf id) C).setResult .nothing).layer (layerOf id) = C := by
    rw [State.setResult_layer, State.layer_setLayer_same]
  refine ⟨_, hrun, fun hvalid => ?_, fun hfits => ?_, ?_, ?_⟩
  · rw [exec_ldec_eq, hblock, himage (LayerProperties.fits_of_valid hvalid), LayerProperties.image_of_valid hvalid]
  · rw [exec_ldec_eq, hblock, himage hfits]
  · rw [hblock]; exact h4
  · rw [hblock]; exact h6

/-! ## What `LDEC` answers, in numbers (R150) -/

/-- A slice of a byte as a number. -/
theorem bits_eq_div_mod {n : Nat} (v : BitVec n) (hi lo : Nat) :
    bits v hi lo = v.toNat / 2 ^ lo % 2 ^ (hi - lo + 1) := by
  rw [bits, Nat.shiftRight_eq_div_pow]

/-- The upper bits of a byte need no cut. -/
theorem bits_top (b : Byte) {lo : Nat} (h : lo ≤ 7) : bits b 7 lo = b.toNat / 2 ^ lo := by
  rw [bits_eq_div_mod]
  refine Nat.mod_eq_of_lt ((Nat.div_lt_iff_lt_mul (Nat.two_pow_pos _)).2 ?_)
  rw [← Nat.pow_add, show 7 - lo + 1 + lo = 8 by omega]
  exact b.isLt

/-- A flag of a byte as a number. -/
theorem bit_eq_decide {n : Nat} (v : BitVec n) (i : Nat) : bit v i = decide (v.toNat / 2 ^ i % 2 = 1) := by
  rw [bit, bits_eq_div_mod, Nat.sub_self]; rfl

/-- A low byte and the bits above it make a sum. -/
theorem byte_or_shiftLeft_eq (b : Byte) (x : Nat) : b.toNat ||| x <<< 8 = b.toNat + 256 * x := by
  rw [Nat.or_comm, ← Nat.shiftLeft_add_eq_or_of_lt b.isLt, Nat.shiftLeft_eq]
  omega

/-- The record of the seven bytes in numbers (R150). -/
theorem decodeLayer_eq (B : LayerBlock) :
    decodeLayer B =
      { colorDepthCode := B[0].toNat % 4, bitmapMode := decide (B[0].toNat / 4 % 2 = 1),
        textMode256Color := decide (B[0].toNat / 8 % 2 = 1), mapBase := B[1].toNat * 512,
        mapWidthLog2 := B[0].toNat / 16 % 4 + 5, mapHeightLog2 := B[0].toNat / 64 + 5,
        tileBase := B[2].toNat / 4 * 2048, tileWidthLog2 := B[2].toNat % 2 + 3,
        tileHeightLog2 := B[2].toNat / 2 % 2 + 3, hScroll := B[3].toNat + 256 * (B[4].toNat % 16),
        vScroll := B[5].toNat + 256 * (B[6].toNat % 16) } := by
  rw [decodeLayer, LayerProperties.mk.injEq]
  refine ⟨?_, ?_, ?_, ?_, ?_, ?_, ?_, ?_, ?_, ?_, ?_⟩
  · exact (bits_eq_div_mod ..).trans (by simp)
  · exact bit_eq_decide ..
  · exact bit_eq_decide ..
  · exact Nat.shiftLeft_eq ..
  · exact congrArg (· + 5) (bits_eq_div_mod ..)
  · exact congrArg (· + 5) (bits_top _ (by decide))
  · exact (Nat.shiftLeft_eq ..).trans (congrArg (· * 2048) (bits_top _ (by decide)))
  · exact congrArg (· + 3) ((bits_eq_div_mod ..).trans (by simp))
  · exact congrArg (· + 3) (bits_eq_div_mod ..)
  · exact (byte_or_shiftLeft_eq ..).trans (by simp [bits_eq_div_mod])
  · exact (byte_or_shiftLeft_eq ..).trans (by simp [bits_eq_div_mod])

/-- Text mode is depth code 0 with the bitmap flag clear: the three low bits of byte 0 are 0 (10_state R32). -/
theorem textMode_eq (b : Nat) :
    (decide (2 ^ (b % 4) = 1) && !decide (b / 4 % 2 = 1)) = decide (b % 8 = 0) := by
  rw [← decide_not, ← Bool.decide_and]
  refine decide_eq_decide.2 ?_
  rw [Nat.pow_eq_one]
  omega

/-- The palette selector is the high scroll nibble (10_state R32). -/
theorem paletteSelector_eq (b : Byte) (x : Nat) : (b.toNat + 256 * (x % 16)) >>> 8 % 16 = x % 16 := by
  have hb := b.isLt
  rw [Nat.shiftRight_eq_div_pow]
  omega

/-- The derived values of the seven bytes in numbers (10_state R32). -/
theorem deriveLayer_decodeLayer_eq (B : LayerBlock) :
    deriveLayer (decodeLayer B) =
      { bitsPerPixel := 2 ^ (B[0].toNat % 4), mapWidth := 2 ^ (B[0].toNat / 16 % 4 + 5),
        mapHeight := 2 ^ (B[0].toNat / 64 + 5), tileWidthPixels := 2 ^ (B[2].toNat % 2 + 3),
        tileHeightPixels := 2 ^ (B[2].toNat / 2 % 2 + 3),
        tileBytes := 2 ^ (B[2].toNat % 2 + 3) * 2 ^ (B[2].toNat / 2 % 2 + 3) * 2 ^ (B[0].toNat % 4) / 8,
        textMode := decide (B[0].toNat % 8 = 0),
        bitmapWidthPixels := if B[2].toNat % 2 = 1 then 640 else 320,
        paletteSelector := B[4].toNat % 16 } := by
  rw [decodeLayer_eq]
  simp only [deriveLayer, textMode_eq, paletteSelector_eq, Nat.one_shiftLeft, Nat.reduceEqDiff]

/-- Settles O11: the record and the derived values in numbers. -/
theorem layerDecodeReadsTheSevenBytes : Obligations.LayerDecodeReadsTheSevenBytes := by
  intro id s l hl
  obtain rfl := eq_layerOf hl
  exact ⟨rfl, _, _, exec_ldec_eq id s, decodeLayer_eq _, deriveLayer_decodeLayer_eq _⟩

/-! ## What each layer encode writes (R152 to R162) -/

/-- A layer encode, from what its field's encode leaves of the block (30_encoding R81). -/
theorem exec_encodeLayerOp_of_encode {f : LayerFieldId} {id : BitVec 8} {val : BitVec 32} {s : State} {C : LayerBlock}
    (h : f.blockField.encode (val.toNat % 2 ^ 17) (s.layer (layerOf id)) = C) :
    exec (encodeLayerOp f id val) s = .next ((s.setLayer (layerOf id) C).setResult .nothing) := by
  rw [exec_encodeLayerOp_eq, fieldValueOf_eq, h]

/-! The encode of each field on a block, as its rule writes it. -/

theorem fieldDepth_encode (v : Nat) (B : LayerBlock) :
    fieldDepth.encode v B = B.set 0 ((B[0] &&& 0xFC#8) ||| BitVec.ofNat 8 (min v 3)) := by
  refine ((LayerFieldId.blockField_sound .colorDepthCode).encode_one_eq_set rfl v B).trans ?_
  simp [LayerFieldId.blockField, BlockField.storedOf, clamp_zero, fieldDepth]

theorem fieldBitmap_encode (v : Nat) (B : LayerBlock) :
    fieldBitmap.encode v B = B.set 0 ((B[0] &&& 0xFB#8) ||| BitVec.ofNat 8 (min v 1 <<< 2)) := by
  refine ((LayerFieldId.blockField_sound .bitmapMode).encode_one_eq_set rfl v B).trans ?_
  simp [LayerFieldId.blockField, BlockField.storedOf, clamp_zero, fieldBitmap]

theorem fieldT256c_encode (v : Nat) (B : LayerBlock) :
    fieldT256c.encode v B = B.set 0 ((B[0] &&& 0xF7#8) ||| BitVec.ofNat 8 (min v 1 <<< 3)) := by
  refine ((LayerFieldId.blockField_sound .textMode256Color).encode_one_eq_set rfl v B).trans ?_
  simp [LayerFieldId.blockField, BlockField.storedOf, clamp_zero, fieldT256c]

theorem fieldMapWidth_encode (v : Nat) (B : LayerBlock) :
    fieldMapWidth.encode v B = B.set 0 ((B[0] &&& 0xCF#8) ||| BitVec.ofNat 8 ((max 5 (min v 8) - 5) <<< 4)) := by
  refine ((LayerFieldId.blockField_sound .mapWidthLog2).encode_one_eq_set rfl v B).trans ?_
  simp [LayerFieldId.blockField, BlockField.storedOf, clamp_eq_max_min, fieldMapWidth]

theorem fieldMapHeight_encode (v : Nat) (B : LayerBlock) :
    fieldMapHeight.encode v B = B.set 0 ((B[0] &&& 0x3F#8) ||| BitVec.ofNat 8 ((max 5 (min v 8) - 5) <<< 6)) := by
  refine ((LayerFieldId.blockField_sound .mapHeightLog2).encode_one_eq_set rfl v B).trans ?_
  simp [LayerFieldId.blockField, BlockField.storedOf, clamp_eq_max_min, fieldMapHeight]

theorem fieldMapBase_encode (v : Nat) (B : LayerBlock) :
    fieldMapBase.encode v B = B.set 1 (BitVec.ofNat 8 (min v 0x1FE00 >>> 9)) := by
  refine ((LayerFieldId.blockField_sound .mapBase).encode_one_eq_set rfl v B).trans ?_
  simp [LayerFieldId.blockField, BlockField.storedOf, clamp_zero, Nat.shiftRight_eq_div_pow, fieldMapBase]

theorem fieldTileBase_encode (v : Nat) (B : LayerBlock) :
    fieldTileBase.encode v B =
      B.set 2 ((B[2] &&& 0x03#8) ||| (BitVec.ofNat 8 ((min v 0x1F800 >>> 11) <<< 2) &&& 0xFC#8)) := by
  rw [BlockField.encode_one rfl]
  simp [Fragment.put, BlockField.storedOf, clamp_zero, Nat.shiftRight_eq_div_pow, fieldTileBase]

theorem fieldTileWidth_encode (v : Nat) (B : LayerBlock) :
    fieldTileWidth.encode v B = B.set 2 ((B[2] &&& 0xFE#8) ||| BitVec.ofNat 8 (max 3 (min v 4) - 3)) := by
  refine ((LayerFieldId.blockField_sound .tileWidthLog2).encode_one_eq_set rfl v B).trans ?_
  simp [LayerFieldId.blockField, BlockField.storedOf, clamp_eq_max_min, fieldTileWidth]

theorem fieldTileHeight_encode (v : Nat) (B : LayerBlock) :
    fieldTileHeight.encode v B = B.set 2 ((B[2] &&& 0xFD#8) ||| BitVec.ofNat 8 ((max 3 (min v 4) - 3) <<< 1)) := by
  refine ((LayerFieldId.blockField_sound .tileHeightLog2).encode_one_eq_set rfl v B).trans ?_
  simp [LayerFieldId.blockField, BlockField.storedOf, clamp_eq_max_min, fieldTileHeight]

/-- A byte made from a number is made from its low eight bits. -/
theorem byte_ofNat_mod (x : Nat) : BitVec.ofNat 8 (x % 256) = BitVec.ofNat 8 x :=
  BitVec.eq_of_toNat_eq (by simp)

theorem fieldHScroll_encode (v : Nat) (B : LayerBlock) :
    fieldHScroll.encode v B = (B.set 3 (BitVec.ofNat 8 (min v 4095))).set 4
      ((B[4] &&& 0xF0#8) ||| BitVec.ofNat 8 (min v 4095 / 256)) := by
  refine ((LayerFieldId.blockField_sound .hScroll).encode_two_eq_set rfl (by decide) v B).trans ?_
  simp [LayerFieldId.blockField, BlockField.storedOf, clamp_zero, Nat.shiftRight_eq_div_pow, byte_ofNat_mod,
    fieldHScroll]

theorem fieldVScroll_encode (v : Nat) (B : LayerBlock) :
    fieldVScroll.encode v B = (B.set 5 (BitVec.ofNat 8 (min v 4095))).set 6
      ((B[6] &&& 0xF0#8) ||| BitVec.ofNat 8 (min v 4095 / 256)) := by
  refine ((LayerFieldId.blockField_sound .vScroll).encode_two_eq_set rfl (by decide) v B).trans ?_
  simp [LayerFieldId.blockField, BlockField.storedOf, clamp_zero, Nat.shiftRight_eq_div_pow, byte_ofNat_mod,
    fieldVScroll]

/-- Settles O14, one field of byte 0 after another. -/
theorem layerByteZeroEncodes : Obligations.LayerByteZeroEncodes := by
  intro id val s l hl
  obtain rfl := eq_layerOf hl
  exact ⟨rfl, rfl, rfl, rfl, rfl,
    exec_encodeLayerOp_of_encode (f := .colorDepthCode) (fieldDepth_encode ..),
    exec_encodeLayerOp_of_encode (f := .bitmapMode) (fieldBitmap_encode ..),
    exec_encodeLayerOp_of_encode (f := .textMode256Color) (fieldT256c_encode ..),
    exec_encodeLayerOp_of_encode (f := .mapWidthLog2) (fieldMapWidth_encode ..),
    exec_encodeLayerOp_of_encode (f := .mapHeightLog2) (fieldMapHeight_encode ..)⟩

/-- Settles O15, one field of bytes 1 and 2 after another. -/
theorem layerBaseAndTileSizeEncodes : Obligations.LayerBaseAndTileSizeEncodes := by
  intro id val s l hl
  obtain rfl := eq_layerOf hl
  exact ⟨rfl, rfl, rfl, rfl,
    exec_encodeLayerOp_of_encode (f := .mapBase) (fieldMapBase_encode ..),
    exec_encodeLayerOp_of_encode (f := .tileBase) (fieldTileBase_encode ..),
    exec_encodeLayerOp_of_encode (f := .tileWidthLog2) (fieldTileWidth_encode ..),
    exec_encodeLayerOp_of_encode (f := .tileHeightLog2) (fieldTileHeight_encode ..)⟩

/-- Settles O16: the low byte of a scroll is all its own, and the high one keeps its unused nibble. -/
theorem layerScrollEncodes : Obligations.LayerScrollEncodes := by
  intro id val s l hl
  obtain rfl := eq_layerOf hl
  exact ⟨rfl, rfl, exec_encodeLayerOp_of_encode (f := .hScroll) (fieldHScroll_encode ..),
    exec_encodeLayerOp_of_encode (f := .vScroll) (fieldVScroll_encode ..)⟩

end Sys2Proof.Machine
end

section
/-! Proofs, family 43_sprite_codec: that a sprite encode sets one property (R194), the round trip of a record (R193),
and the decode and encodes of sprite bytes as the rules write them (R180, R182 to R192). The common encode step over
the fields of a block of any size (R83, R181) is in the family before. -/

namespace Sys2Proof.Machine

/-! ## The eleven fields of a sprite -/

/-- The fields in the order of their ids (R96), which is the order of `SENCALL` (R108). -/
def SpriteFieldId.all : List SpriteFieldId :=
  [.address, .colorMode, .x, .y, .hFlip, .vFlip, .zDepth, .collisionMask, .paletteOffset, .widthLog2, .heightLog2]

theorem SpriteFieldId.mem_all (f : SpriteFieldId) : f ∈ all := by cases f <;> decide

/-- The property of a field as a number, a flag as 0 or 1. -/
def SpriteFieldId.get : SpriteFieldId → SpriteProperties → Nat
  | .address, p => p.address
  | .colorMode, p => p.colorMode.toNat
  | .x, p => p.x
  | .y, p => p.y
  | .hFlip, p => p.hFlip.toNat
  | .vFlip, p => p.vFlip.toNat
  | .zDepth, p => p.zDepth
  | .collisionMask, p => p.collisionMask
  | .paletteOffset, p => p.paletteOffset
  | .widthLog2, p => p.widthLog2
  | .heightLog2, p => p.heightLog2

/-- Each row of R96 is in order. -/
theorem SpriteFieldId.blockField_sound (f : SpriteFieldId) : f.blockField.Sound :=
  (show ∀ f ∈ all, f.blockField.Sound by decide) f f.mem_all

/-- Different rows of R96 share no bit (R194). -/
theorem SpriteFieldId.blockField_disjoint {f g : SpriteFieldId} (h : f ≠ g) : f.blockField.Disjoint g.blockField :=
  (show ∀ f ∈ all, ∀ g ∈ all, f ≠ g → f.blockField.Disjoint g.blockField by decide) f f.mem_all g g.mem_all h

/-- No row of R96 holds an unused bit of bytes 1, 3 and 5 (R104). -/
theorem SpriteFieldId.blockField_avoids_unused (f : SpriteFieldId) :
    f.blockField.Avoids 1 0x70#8 ∧ f.blockField.Avoids 3 0xFC#8 ∧ f.blockField.Avoids 5 0xFC#8 :=
  (show ∀ f ∈ all, f.blockField.Avoids 1 0x70#8 ∧ f.blockField.Avoids 3 0xFC#8 ∧ f.blockField.Avoids 5 0xFC#8 by
    decide) f f.mem_all

/-- The decode of R180, field by field, is the decode of the field table. -/
theorem SpriteFieldId.get_decodeSprite (f : SpriteFieldId) (B : SpriteBlock) :
    f.get (decodeSprite B) = f.blockField.decode B := by
  obtain ⟨haddress, hmode, hx, hy, hhflip, hvflip, hdepth, hcoll, hpal, hwidth, hheight⟩ :=
    spriteDecodeAgreesWithFieldTable B
  cases f <;> assumption

/-- A record is its eleven properties. -/
theorem SpriteProperties.ext_get {p q : SpriteProperties} (h : ∀ f : SpriteFieldId, f.get p = f.get q) : p = q := by
  have hflag := Function.LeftInverse.injective Bool.ofNat_toNat
  have hmode : p.colorMode = q.colorMode := hflag (h .colorMode)
  have hhflip : p.hFlip = q.hFlip := hflag (h .hFlip)
  have hvflip : p.vFlip = q.vFlip := hflag (h .vFlip)
  obtain ⟨_, _, _, _, _, _, _, _, _, _, _⟩ := p
  obtain ⟨_, _, _, _, _, _, _, _, _, _, _⟩ := q
  rw [SpriteProperties.mk.injEq]
  exact ⟨h .address, hmode, h .x, h .y, hhflip, hvflip, h .zDepth, h .collisionMask, h .paletteOffset, h .widthLog2,
    h .heightLog2⟩

/-- The property a field's update sets is the one its encode leaves. -/
theorem SpriteFieldId.get_update_self (f : SpriteFieldId) (v : Nat) (p : SpriteProperties) :
    f.get (f.update v p) = f.blockField.imageOf v := by
  cases f
  case colorMode | hFlip | vFlip =>
    refine (toNat_decide_ne_zero v).trans ?_
    simp [BlockField.imageOf, blockField, fieldColorMode, fieldHFlip, fieldVFlip, clamp_zero]
  all_goals
    simp [get, update, BlockField.imageOf, blockField, clamp_zero, fieldAddress, fieldX, fieldY, fieldZDepth,
      fieldCollision, fieldPaletteOffset, fieldWidth, fieldHeight]

/-- An update leaves every other property. -/
theorem SpriteFieldId.get_update_of_ne {f g : SpriteFieldId} (h : f ≠ g) (v : Nat) (p : SpriteProperties) :
    g.get (f.update v p) = g.get p := by
  cases f <;> cases g <;> simp [get, update] at h ⊢

/-- A sprite encode sets its own property to the clamped, aligned value, and no other (R181, R194). -/
theorem decodeSprite_encode (f : SpriteFieldId) (v : Nat) (B : SpriteBlock) :
    decodeSprite (f.blockField.encode v B) = f.update v (decodeSprite B) := by
  refine SpriteProperties.ext_get fun g => ?_
  rw [g.get_decodeSprite]
  by_cases h : f = g
  · subst h
    rw [f.blockField_sound.decode_encode, f.get_update_self]
  · rw [BlockField.decode_encode_of_disjoint (SpriteFieldId.blockField_disjoint h), SpriteFieldId.get_update_of_ne h,
      g.get_decodeSprite]

/-! ## What a sprite encode and `SDEC` answer -/

/-- A sprite encode completes with its field rewritten (R181). -/
theorem exec_encodeSpriteOp_eq (f : SpriteFieldId) (id : BitVec 8) (val : BitVec 32) (s : State) :
    exec (encodeSpriteOp f id val) s =
      .next ((s.setSprite (spriteOf id) (f.blockField.encode (fieldValueOf val) (s.sprite (spriteOf id)))).setResult
        .nothing) := by
  rw [exec_encodeSpriteOp, encodeSpriteField_eq]

/-- `SDEC` returns the decoded record of its sprite and the values derived from it (R180). -/
theorem exec_sdec_eq (id : BitVec 8) (s : State) :
    exec (.sdec id) s = .next (s.setResult (.sprite (decodeSprite (s.sprite (spriteOf id)))
      (deriveSprite (decodeSprite (s.sprite (spriteOf id)))))) := rfl

/-- The sprite a port names, from its number (30_encoding R81). -/
theorem eq_spriteOf {id : BitVec 8} {k : Fin 128} (h : k.val = id.toNat % 128) : k = spriteOf id :=
  Fin.ext (h.trans (spriteOf_val id).symm)

/-- A sprite's block after it is replaced, whatever then stands on the result port. -/
theorem sprite_setResult_setSprite (s : State) (k : Fin 128) (B : SpriteBlock) (r : Result) :
    ((s.setSprite k B).setResult r).sprite k = B := by
  rw [State.setResult_sprite, State.sprite_setSprite_same]

/-! ## The unused bits (R104) -/

/-- Two sprite blocks agree in the unused bits of bytes 1, 3 and 5. -/
@[reducible] def SameUnused (B C : SpriteBlock) : Prop :=
  B[1] &&& 0x70#8 = C[1] &&& 0x70#8 ∧ B[3] &&& 0xFC#8 = C[3] &&& 0xFC#8 ∧ B[5] &&& 0xFC#8 = C[5] &&& 0xFC#8

theorem SameUnused.refl (B : SpriteBlock) : SameUnused B B := ⟨rfl, rfl, rfl⟩

theorem SameUnused.trans {B C D : SpriteBlock} (h : SameUnused B C) (h' : SameUnused C D) : SameUnused B D :=
  have ⟨h1, h3, h5⟩ := h
  have ⟨h1', h3', h5'⟩ := h'
  ⟨h1.trans h1', h3.trans h3', h5.trans h5'⟩

/-- A sprite encode leaves the unused bits (R194). -/
theorem encode_sameUnused (f : SpriteFieldId) (v : Nat) (B : SpriteBlock) :
    SameUnused (f.blockField.encode v B) B :=
  have ⟨h1, h3, h5⟩ := f.blockField_avoids_unused
  ⟨BlockField.encode_and_of_avoids h1 v B, BlockField.encode_and_of_avoids h3 v B,
    BlockField.encode_and_of_avoids h5 v B⟩

/-! ## Sprite encodes one after another -/

/-- The operations that encode a list of fields and values in a sprite. -/
def encodeSpriteOps (id : BitVec 8) (qs : List (SpriteFieldId × BitVec 32)) : List Instr :=
  qs.map fun q => encodeSpriteOp q.1 id q.2

/-- What those encodes leave of a block. -/
def encodeSpriteAll (qs : List (SpriteFieldId × BitVec 32)) (B : SpriteBlock) : SpriteBlock :=
  qs.foldl (fun C q => q.1.blockField.encode (fieldValueOf q.2) C) B

/-- What those encodes leave of a record. -/
def updateSpriteAll (qs : List (SpriteFieldId × BitVec 32)) (p : SpriteProperties) : SpriteProperties :=
  qs.foldl (fun r q => q.1.update (fieldValueOf q.2) r) p

/-- Sprite encodes one after another, at least one, complete, and only the sprite's block and the result port
change. -/
theorem runOps_encodeSpriteOps (id : BitVec 8) (q : SpriteFieldId × BitVec 32)
    (qs : List (SpriteFieldId × BitVec 32)) (s : State) :
    runOps (encodeSpriteOps id (q :: qs)) s =
      .next ((s.setSprite (spriteOf id) (encodeSpriteAll (q :: qs) (s.sprite (spriteOf id)))).setResult .nothing) := by
  induction qs generalizing q s with
  | nil =>
    rw [encodeSpriteOps, List.map_singleton, runOps, exec_encodeSpriteOp_eq]
    rfl
  | cons r qs ih =>
    rw [encodeSpriteOps, List.map_cons, runOps, exec_encodeSpriteOp_eq]
    refine (ih r _).trans ?_
    simp [encodeSpriteAll]

/-- The decode of a block after encodes is the record after the updates. -/
theorem decodeSprite_encodeSpriteAll (qs : List (SpriteFieldId × BitVec 32)) (B : SpriteBlock) :
    decodeSprite (encodeSpriteAll qs B) = updateSpriteAll qs (decodeSprite B) := by
  induction qs generalizing B with
  | nil => rfl
  | cons q qs ih => exact (ih _).trans (congrArg (updateSpriteAll qs) (decodeSprite_encode ..))

/-- Encodes leave the unused bits of a block. -/
theorem encodeSpriteAll_sameUnused (qs : List (SpriteFieldId × BitVec 32)) (B : SpriteBlock) :
    SameUnused (encodeSpriteAll qs B) B := by
  induction qs generalizing B with
  | nil => exact .refl B
  | cons q qs ih => exact (ih _).trans (encode_sameUnused ..)

/-- Settles O25: one encode sets one property, and encodes of different fields commute on the block, since the fields
of R96 share no bit. -/
theorem spriteEncodeSetsOnePropertyOnly : Obligations.SpriteEncodeSetsOnePropertyOnly := by
  intro f id val s k hk
  obtain rfl := eq_spriteOf hk
  have hblock := sprite_setResult_setSprite s (spriteOf id)
    (f.blockField.encode (fieldValueOf val) (s.sprite (spriteOf id))) .nothing
  have hunused := encode_sameUnused f (fieldValueOf val) (s.sprite (spriteOf id))
  rw [← hblock] at hunused
  obtain ⟨h1, h3, h5⟩ := hunused
  refine ⟨⟨_, exec_encodeSpriteOp_eq f id val s, ?_, h1, h3, h5, fun k' hne => ?_, rfl, rfl, rfl, rfl, rfl⟩,
    fun g w hne => ?_⟩
  · rw [hblock, decodeSprite_encode, fieldValueOf_eq]
  · rw [State.setResult_sprite, State.sprite_setSprite, if_neg hne.symm]
  · have hcomm (B : SpriteBlock) : encodeSpriteAll [(f, val), (g, w)] B = encodeSpriteAll [(g, w), (f, val)] B :=
      BlockField.encode_comm (SpriteFieldId.blockField_disjoint hne) ..
    calc runOps (encodeSpriteOps id [(f, val), (g, w)]) s
        = _ := runOps_encodeSpriteOps ..
      _ = _ := by rw [hcomm]
      _ = runOps (encodeSpriteOps id [(g, w), (f, val)]) s := (runOps_encodeSpriteOps ..).symm

/-! ## The round trip of a record (R193) -/

/-- `SENCALL` of a record as fields and values (30_encoding R108). -/
def SpriteProperties.encodes (p : SpriteProperties) : List (SpriteFieldId × BitVec 32) :=
  SpriteFieldId.all.map fun f => (f, BitVec.ofNat 32 (f.get p))

theorem sencall_eq (id : BitVec 8) (p : SpriteProperties) : sencall id p = encodeSpriteOps id p.encodes := rfl

/-- The eleven updates replace every property, so nothing of the record they start from is left. -/
theorem updateSpriteAll_encodes {p : SpriteProperties} (h : p.fits) (q : SpriteProperties) :
    updateSpriteAll p.encodes q = p.image := by
  obtain ⟨haddress, hx, hy, hdepth, hcoll, hpal, hwidth, hheight⟩ := h
  simp [updateSpriteAll, SpriteProperties.encodes, SpriteFieldId.all, SpriteFieldId.get, SpriteFieldId.update,
    SpriteProperties.image, fieldValueOf_toNat, fieldValueOf_ofNat haddress, fieldValueOf_ofNat hx,
    fieldValueOf_ofNat hy, fieldValueOf_ofNat hdepth, fieldValueOf_ofNat hcoll, fieldValueOf_ofNat hpal,
    fieldValueOf_ofNat hwidth, fieldValueOf_ofNat hheight]

/-- The fields of a valid record, each in its range (10_state R34, R36). -/
theorem SpriteProperties.valid_iff (p : SpriteProperties) :
    p.valid = true ↔ (p.address ≤ 0x1FFE0 ∧ p.address % 32 = 0) ∧ p.x ≤ 1023 ∧ p.y ≤ 1023 ∧ p.zDepth ≤ 3 ∧
      p.collisionMask ≤ 15 ∧ (p.paletteOffset ≤ 240 ∧ p.paletteOffset % 16 = 0) ∧
      (3 ≤ p.widthLog2 ∧ p.widthLog2 ≤ 6) ∧ (3 ≤ p.heightLog2 ∧ p.heightLog2 ≤ 6) := by
  simp only [valid, Bool.and_eq_true, decide_eq_true_eq, and_assoc]

/-- A valid record fits the port. -/
theorem SpriteProperties.fits_of_valid {p : SpriteProperties} (h : p.valid = true) : p.fits := by
  rw [valid_iff] at h
  unfold fits
  omega

/-- A valid record is its own clamped, aligned image (R193). -/
theorem SpriteProperties.image_of_valid {p : SpriteProperties} (h : p.valid = true) : p.image = p := by
  rw [valid_iff] at h
  rw [image, SpriteProperties.mk.injEq]
  simp only [clamp_eq_max_min, Nat.reduceLeDiff, true_and]
  omega

/-- `SENCALL` completes and leaves, whatever stood there, a block that decodes to the image of the record, with its
unused bits kept (R193). -/
theorem runOps_sencall (id : BitVec 8) (p : SpriteProperties) (s : State) :
    ∃ C : SpriteBlock, runOps (sencall id p) s = .next ((s.setSprite (spriteOf id) C).setResult .nothing) ∧
      (p.fits → decodeSprite C = p.image) ∧ SameUnused C (s.sprite (spriteOf id)) := by
  refine ⟨encodeSpriteAll p.encodes (s.sprite (spriteOf id)), ?_, fun hfits => ?_, encodeSpriteAll_sameUnused ..⟩
  · rw [sencall_eq]; exact runOps_encodeSpriteOps ..
  · rw [decodeSprite_encodeSpriteAll, updateSpriteAll_encodes hfits]

/-- Settles O26: `SENCALL` leaves the image of the record, and a valid record is its own image. -/
theorem spriteRoundTrip : Obligations.SpriteRoundTrip := by
  intro id P s k hk
  obtain rfl := eq_spriteOf hk
  obtain ⟨C, hrun, himage, hunused⟩ := runOps_sencall id P s
  have hblock := sprite_setResult_setSprite s (spriteOf id) C .nothing
  refine ⟨_, hrun, fun hvalid => ?_, fun hfits => ?_, by rwa [hblock]⟩
  · rw [exec_sdec_eq, hblock, himage (SpriteProperties.fits_of_valid hvalid), SpriteProperties.image_of_valid hvalid]
  · rw [exec_sdec_eq, hblock, himage hfits]

/-! ## What `SDEC` answers, in numbers (R180) -/

/-- The record of the eight bytes in numbers (R180). -/
theorem decodeSprite_eq (B : SpriteBlock) :
    decodeSprite B =
      { address := B[0].toNat * 32 + B[1].toNat % 16 * 8192, colorMode := decide (128 ≤ B[1].toNat),
        x := B[2].toNat + 256 * (B[3].toNat % 4), y := B[4].toNat + 256 * (B[5].toNat % 4),
        hFlip := decide (B[6].toNat % 2 = 1), vFlip := decide (B[6].toNat / 2 % 2 = 1),
        zDepth := B[6].toNat / 4 % 4, collisionMask := B[6].toNat / 16,
        paletteOffset := B[7].toNat % 16 * 16, widthLog2 := B[7].toNat / 16 % 4 + 3,
        heightLog2 := B[7].toNat / 64 + 3 } := by
  have hB := B[1].isLt
  rw [decodeSprite, SpriteProperties.mk.injEq]
  refine ⟨?_, ?_, ?_, ?_, ?_, ?_, ?_, ?_, ?_, ?_, ?_⟩
  · rw [spriteAddress_eq, byte_or_shiftLeft_eq, bits_eq_div_mod]; omega
  · rw [bit_eq_decide]; exact decide_eq_decide.2 (by omega)
  · exact (byte_or_shiftLeft_eq ..).trans (by simp [bits_eq_div_mod])
  · exact (byte_or_shiftLeft_eq ..).trans (by simp [bits_eq_div_mod])
  · exact (bit_eq_decide ..).trans (by simp)
  · exact bit_eq_decide ..
  · exact bits_eq_div_mod ..
  · exact bits_top _ (by decide)
  · exact (Nat.shiftLeft_eq ..).trans (by simp [bits_eq_div_mod])
  · exact congrArg (· + 3) (bits_eq_div_mod ..)
  · exact congrArg (· + 3) (bits_top _ (by decide))

/-- The bits per pixel are 8 with the colour mode set and 4 with it clear (10_state R35). -/
theorem four_shiftLeft_toNat (b : Bool) : 4 <<< b.toNat = if b then 8 else 4 := by cases b <;> rfl

/-- The derived values of the eight bytes in numbers (10_state R35). -/
theorem deriveSprite_decodeSprite_eq (B : SpriteBlock) :
    deriveSprite (decodeSprite B) =
      { bitsPerPixel := if 128 ≤ B[1].toNat then 8 else 4, widthPixels := 2 ^ (B[7].toNat / 16 % 4 + 3),
        heightPixels := 2 ^ (B[7].toNat / 64 + 3),
        pixelCount := 2 ^ (B[7].toNat / 16 % 4 + B[7].toNat / 64 + 6),
        dataBytes := 2 ^ (B[7].toNat / 16 % 4 + B[7].toNat / 64 + 6) * (if 128 ≤ B[1].toNat then 8 else 4) / 8 } := by
  have hcount : B[7].toNat / 16 % 4 + 3 + (B[7].toNat / 64 + 3) = B[7].toNat / 16 % 4 + B[7].toNat / 64 + 6 := by omega
  rw [decodeSprite_eq]
  simp only [deriveSprite, four_shiftLeft_toNat, hcount, decide_eq_true_eq]

/-- Settles O19: the record and the derived values in numbers. -/
theorem spriteDecodeReadsTheEightBytes : Obligations.SpriteDecodeReadsTheEightBytes := by
  intro id s k hk
  obtain rfl := eq_spriteOf hk
  exact ⟨rfl, _, _, exec_sdec_eq id s, decodeSprite_eq _, deriveSprite_decodeSprite_eq _⟩

/-! ## What each sprite encode writes (R182 to R192) -/

/-- A sprite encode, from what its field's encode leaves of the block (30_encoding R81). -/
theorem exec_encodeSpriteOp_of_encode {f : SpriteFieldId} {id : BitVec 8} {val : BitVec 32} {s : State}
    {C : SpriteBlock} (h : f.blockField.encode (val.toNat % 2 ^ 17) (s.sprite (spriteOf id)) = C) :
    exec (encodeSpriteOp f id val) s = .next ((s.setSprite (spriteOf id) C).setResult .nothing) := by
  rw [exec_encodeSpriteOp_eq, fieldValueOf_eq, h]

/-- The stored value of a field that ranges from 0: the clamped value in units of the scale (R181). -/
theorem BlockField.storedOf_of_zero {n : Nat} {f : BlockField n} (hmin : f.pmin = 0) (hbias : f.bias = 0) (v : Nat) :
    f.storedOf v = min v f.pmax / f.scale := by
  rw [storedOf, hmin, hbias, clamp_zero, Nat.sub_zero]

/-- The stored value of a field that ranges from 0 in units of 1 (R181). -/
theorem BlockField.storedOf_of_unit {n : Nat} {f : BlockField n} (hmin : f.pmin = 0) (hbias : f.bias = 0)
    (hscale : f.scale = 1) (v : Nat) : f.storedOf v = min v f.pmax := by
  rw [storedOf_of_zero hmin hbias, hscale, Nat.div_one]

/-- The stored value of a biased field in units of 1 (R181). -/
theorem BlockField.storedOf_of_biased {n : Nat} {f : BlockField n} (hrange : f.pmin ≤ f.pmax) (hscale : f.scale = 1)
    (v : Nat) : f.storedOf v = max f.pmin (min v f.pmax) - f.bias := by
  rw [storedOf, clamp_eq_max_min hrange, hscale, Nat.div_one]

/-- The encode of a field in a part of one byte, from its stored value `x` (R181). -/
theorem BlockField.Sound.encode_part {n : Nat} {f : BlockField n} (h : f.Sound) (hf : f.high = none) {v x : Nat}
    (hx : f.storedOf v = x) (B : Vector Byte n) :
    f.encode v B = B.set f.low.byte.val
      ((B[f.low.byte] &&& ~~~f.low.mask) ||| BitVec.ofNat 8 (x <<< f.low.shift)) := by
  rw [h.encode_one_eq_set hf, hx]

/-- The encode of a field in the whole of one byte and the low bits of another, from its stored value `x` (R181): the
low byte is all its own, and the high one keeps its other bits. -/
theorem BlockField.Sound.encode_byte_and_part {n : Nat} {f : BlockField n} {o : Fin n} {a : Fragment n} (h : f.Sound)
    (hlow : f.low = ⟨o, 0xFF#8, 0⟩) (hwidth : f.lowWidth = 8) (hf : f.high = some a) (hshift : a.shift = 0)
    (hbyte : o ≠ a.byte) {v x : Nat} (hx : f.storedOf v = x) (B : Vector Byte n) :
    f.encode v B = (B.set o.val (BitVec.ofNat 8 x)).set a.byte.val
      ((B[a.byte] &&& ~~~a.mask) ||| BitVec.ofNat 8 (x / 256)) := by
  rw [h.encode_two_eq_set hf (by rwa [hlow]), hx]
  simp [hlow, hwidth, hshift, byte_ofNat_mod, Nat.shiftRight_eq_div_pow]

/-! The encode of each field on a block, as its rule writes it. -/

theorem fieldAddress_encode (v : Nat) (B : SpriteBlock) :
    fieldAddress.encode v B = (B.set 0 (BitVec.ofNat 8 (min v 0x1FFE0 / 32))).set 1
      ((B[1] &&& 0xF0#8) ||| BitVec.ofNat 8 (min v 0x1FFE0 / 32 / 256)) :=
  (SpriteFieldId.blockField_sound .address).encode_byte_and_part rfl rfl rfl rfl (by decide)
    (BlockField.storedOf_of_zero rfl rfl _) B

theorem fieldColorMode_encode (v : Nat) (B : SpriteBlock) :
    fieldColorMode.encode v B = B.set 1 ((B[1] &&& 0x7F#8) ||| BitVec.ofNat 8 (min v 1 <<< 7)) :=
  (SpriteFieldId.blockField_sound .colorMode).encode_part rfl (BlockField.storedOf_of_unit rfl rfl rfl _) B

theorem fieldX_encode (v : Nat) (B : SpriteBlock) :
    fieldX.encode v B = (B.set 2 (BitVec.ofNat 8 (min v 1023))).set 3
      ((B[3] &&& 0xFC#8) ||| BitVec.ofNat 8 (min v 1023 / 256)) :=
  (SpriteFieldId.blockField_sound .x).encode_byte_and_part rfl rfl rfl rfl (by decide)
    (BlockField.storedOf_of_unit rfl rfl rfl _) B

theorem fieldY_encode (v : Nat) (B : SpriteBlock) :
    fieldY.encode v B = (B.set 4 (BitVec.ofNat 8 (min v 1023))).set 5
      ((B[5] &&& 0xFC#8) ||| BitVec.ofNat 8 (min v 1023 / 256)) :=
  (SpriteFieldId.blockField_sound .y).encode_byte_and_part rfl rfl rfl rfl (by decide)
    (BlockField.storedOf_of_unit rfl rfl rfl _) B

theorem fieldHFlip_encode (v : Nat) (B : SpriteBlock) :
    fieldHFlip.encode v B = B.set 6 ((B[6] &&& 0xFE#8) ||| BitVec.ofNat 8 (min v 1)) :=
  (SpriteFieldId.blockField_sound .hFlip).encode_part rfl (BlockField.storedOf_of_unit rfl rfl rfl _) B

theorem fieldVFlip_encode (v : Nat) (B : SpriteBlock) :
    fieldVFlip.encode v B = B.set 6 ((B[6] &&& 0xFD#8) ||| BitVec.ofNat 8 (min v 1 <<< 1)) :=
  (SpriteFieldId.blockField_sound .vFlip).encode_part rfl (BlockField.storedOf_of_unit rfl rfl rfl _) B

theorem fieldZDepth_encode (v : Nat) (B : SpriteBlock) :
    fieldZDepth.encode v B = B.set 6 ((B[6] &&& 0xF3#8) ||| BitVec.ofNat 8 (min v 3 <<< 2)) :=
  (SpriteFieldId.blockField_sound .zDepth).encode_part rfl (BlockField.storedOf_of_unit rfl rfl rfl _) B

theorem fieldCollision_encode (v : Nat) (B : SpriteBlock) :
    fieldCollision.encode v B = B.set 6 ((B[6] &&& 0x0F#8) ||| BitVec.ofNat 8 (min v 15 <<< 4)) :=
  (SpriteFieldId.blockField_sound .collisionMask).encode_part rfl (BlockField.storedOf_of_unit rfl rfl rfl _) B

theorem fieldPaletteOffset_encode (v : Nat) (B : SpriteBlock) :
    fieldPaletteOffset.encode v B = B.set 7 ((B[7] &&& 0xF0#8) ||| BitVec.ofNat 8 (min v 240 / 16)) :=
  (SpriteFieldId.blockField_sound .paletteOffset).encode_part rfl (BlockField.storedOf_of_zero rfl rfl _) B

theorem fieldWidth_encode (v : Nat) (B : SpriteBlock) :
    fieldWidth.encode v B = B.set 7 ((B[7] &&& 0xCF#8) ||| BitVec.ofNat 8 ((max 3 (min v 6) - 3) <<< 4)) :=
  (SpriteFieldId.blockField_sound .widthLog2).encode_part rfl (BlockField.storedOf_of_biased (by decide) rfl _) B

theorem fieldHeight_encode (v : Nat) (B : SpriteBlock) :
    fieldHeight.encode v B = B.set 7 ((B[7] &&& 0x3F#8) ||| BitVec.ofNat 8 ((max 3 (min v 6) - 3) <<< 6)) :=
  (SpriteFieldId.blockField_sound .heightLog2).encode_part rfl (BlockField.storedOf_of_biased (by decide) rfl _) B

/-- Settles O22, one field of bytes 0 to 5 after another. -/
theorem spriteAddressAndPositionEncodes : Obligations.SpriteAddressAndPositionEncodes := by
  intro id val s k hk
  obtain rfl := eq_spriteOf hk
  exact ⟨rfl, rfl, rfl, rfl,
    exec_encodeSpriteOp_of_encode (f := .address) (fieldAddress_encode ..),
    exec_encodeSpriteOp_of_encode (f := .colorMode) (fieldColorMode_encode ..),
    exec_encodeSpriteOp_of_encode (f := .x) (fieldX_encode ..),
    exec_encodeSpriteOp_of_encode (f := .y) (fieldY_encode ..)⟩

/-- Settles O23, one field of byte 6 after another. -/
theorem spriteByteSixEncodes : Obligations.SpriteByteSixEncodes := by
  intro id val s k hk
  obtain rfl := eq_spriteOf hk
  exact ⟨rfl, rfl, rfl, rfl,
    exec_encodeSpriteOp_of_encode (f := .hFlip) (fieldHFlip_encode ..),
    exec_encodeSpriteOp_of_encode (f := .vFlip) (fieldVFlip_encode ..),
    exec_encodeSpriteOp_of_encode (f := .zDepth) (fieldZDepth_encode ..),
    exec_encodeSpriteOp_of_encode (f := .collisionMask) (fieldCollision_encode ..)⟩

/-- Settles O24, one field of byte 7 after another. -/
theorem spriteByteSevenEncodes : Obligations.SpriteByteSevenEncodes := by
  intro id val s k hk
  obtain rfl := eq_spriteOf hk
  exact ⟨rfl, rfl, rfl,
    exec_encodeSpriteOp_of_encode (f := .paletteOffset) (fieldPaletteOffset_encode ..),
    exec_encodeSpriteOp_of_encode (f := .widthLog2) (fieldWidth_encode ..),
    exec_encodeSpriteOp_of_encode (f := .heightLog2) (fieldHeight_encode ..)⟩

end Sys2Proof.Machine
end

section
/-! Proofs, family 44_layer_compositor: the palette offset quirk (R212), and what `RLAYER` returns in bitmap mode (R213)
and in tile mode (R214 to R221), its totality (R224), the end-to-end scenario (R225) and what it ignores (R222). -/

namespace Sys2Proof.Machine

/-! ## The palette offset quirk (R212) -/

theorem poff_of_mem {idx : Nat} (q : Nat) (h : 1 ≤ idx ∧ idx ≤ 15) : poff idx q = idx + 16 * q := if_pos h

theorem poff_of_not_mem {idx : Nat} (q : Nat) (h : ¬(1 ≤ idx ∧ idx ≤ 15)) : poff idx q = idx := if_neg h

/-- No wrap can occur: a shifted index is at most 15 + 240. -/
theorem poff_lt {idx q : Nat} (hidx : idx < 256) (hq : q < 16) : poff idx q < 256 := by
  unfold poff
  split <;> omega

/-- Settles O27: the quirk's two branches, and its bound. -/
theorem paletteOffsetQuirk : Obligations.PaletteOffsetQuirk := by
  intro idx q hidx hq
  exact ⟨poff_of_mem q, fun h => poff_of_not_mem q (by omega),
    Nat.le_of_lt_succ (poff_lt (Nat.lt_succ_of_le hidx) (Nat.lt_succ_of_le hq))⟩

/-! ## Packed pixels at a layer's depth -/

/-- The pixels of a byte fill it at each of the four depth codes (30_encoding R84, R103). -/
theorem two_pow_mul_pixelsPerByte {code : Nat} (h : code ≤ 3) : 2 ^ code * pixelsPerByte (2 ^ code) = 8 := by
  interval_cases code <;> rfl

theorem two_pow_code_le_eight {code : Nat} (h : code ≤ 3) : 2 ^ code ≤ 8 := Nat.pow_le_pow_right (by decide) h

/-- A pixel of the linear run is the packed pixel of the byte that holds it. -/
theorem linearIndex_eq_packedIndex {bpp : Nat} (h : bpp ≤ 8) (m : Memory) (base i : Nat) :
    linearIndex m base bpp i = packedIndex m base bpp i := lane_toNat h _ _

theorem packedIndex_lt {bpp : Nat} (h : bpp ≤ 8) (m : Memory) (base j : Nat) : packedIndex m base bpp j < 256 :=
  (Nat.mod_lt _ (Nat.two_pow_pos _)).trans_le (Nat.pow_le_pow_right (by decide) h)

/-- Whole bytes of packed pixels hold as many pixels as they were measured from. -/
theorem packedBytes_mul_pixelsPerByte {bpp n : Nat} (hfill : bpp * pixelsPerByte bpp = 8) (hn : 8 ∣ n) :
    n * bpp / 8 * pixelsPerByte bpp = n := by
  obtain ⟨k, rfl⟩ := hn
  rw [Nat.mul_assoc, Nat.mul_div_cancel_left _ (by decide), Nat.mul_assoc, hfill, Nat.mul_comm]

/-! ## A layer's record and its derived values -/

theorem deriveLayer_bitsPerPixel (p : LayerProperties) : (deriveLayer p).bitsPerPixel = 2 ^ p.colorDepthCode :=
  Nat.one_shiftLeft _

theorem deriveLayer_tileBytes (p : LayerProperties) :
    (deriveLayer p).tileBytes = 2 ^ p.tileWidthLog2 * 2 ^ p.tileHeightLog2 * 2 ^ p.colorDepthCode / 8 :=
  congrArg (2 ^ p.tileWidthLog2 * 2 ^ p.tileHeightLog2 * · / 8) (Nat.one_shiftLeft _)

theorem deriveLayer_paletteSelector (B : LayerBlock) :
    (deriveLayer (decodeLayer B)).paletteSelector = B[4].toNat % 16 :=
  congrArg LayerDerived.paletteSelector (deriveLayer_decodeLayer_eq B)

theorem decodeLayer_bitmapMode (B : LayerBlock) :
    (decodeLayer B).bitmapMode = decide (B[0].toNat / 4 % 2 = 1) :=
  congrArg LayerProperties.bitmapMode (decodeLayer_eq B)

/-- A power of two between its exponent's bounds. -/
theorem two_pow_bounds {e lo hi : Nat} (hlo : lo ≤ e) (hhi : e ≤ hi) : 2 ^ lo ≤ 2 ^ e ∧ 2 ^ e ≤ 2 ^ hi :=
  ⟨Nat.pow_le_pow_right (by decide) hlo, Nat.pow_le_pow_right (by decide) hhi⟩

/-- A tile side is 8 or 16 pixels (R214). -/
theorem tileSide_eq {e : Nat} (h : 3 ≤ e ∧ e ≤ 4) : 2 ^ e = 8 ∨ 2 ^ e = 16 := by
  obtain ⟨hlo, hhi⟩ := h
  interval_cases e <;> decide

/-- A map side is 32 to 256 cells (R214). -/
theorem mapSide_bounds {e : Nat} (h : 5 ≤ e ∧ e ≤ 8) : 32 ≤ 2 ^ e ∧ 2 ^ e ≤ 256 := two_pow_bounds h.1 h.2

section
variable {p : LayerProperties} (hp : p.valid = true)
include hp

/-- A tile is 8 to 256 bytes: 64 to 256 pixels of 1 to 8 bits (R216). -/
theorem tileBytes_bounds :
    8 ≤ 2 ^ p.tileWidthLog2 * 2 ^ p.tileHeightLog2 * 2 ^ p.colorDepthCode / 8 ∧
      2 ^ p.tileWidthLog2 * 2 ^ p.tileHeightLog2 * 2 ^ p.colorDepthCode / 8 ≤ 256 := by
  obtain ⟨hdepth, -, -, -, -, htilew, htileh, -, -⟩ := p.valid_iff.1 hp
  have hpixels := two_pow_bounds (e := p.tileWidthLog2 + p.tileHeightLog2 + p.colorDepthCode) (lo := 6) (hi := 11)
    (by omega) (by omega)
  rw [← Nat.pow_add, ← Nat.pow_add]
  omega

/-- A map is 2^16 to 2^24 pixels (R214). -/
theorem mapPixels_bounds :
    2 ^ 16 ≤ 2 ^ p.tileWidthLog2 * 2 ^ p.mapWidthLog2 * (2 ^ p.tileHeightLog2 * 2 ^ p.mapHeightLog2) ∧
      2 ^ p.tileWidthLog2 * 2 ^ p.mapWidthLog2 * (2 ^ p.tileHeightLog2 * 2 ^ p.mapHeightLog2) ≤ 2 ^ 24 := by
  obtain ⟨-, -, hmapw, hmaph, -, htilew, htileh, -, -⟩ := p.valid_iff.1 hp
  rw [← Nat.pow_add, ← Nat.pow_add, ← Nat.pow_add]
  exact two_pow_bounds (by omega) (by omega)

/-- The bytes of a tile hold exactly its pixels (R216). -/
theorem tileBytes_mul_pixelsPerByte :
    (deriveLayer p).tileBytes * pixelsPerByte (2 ^ p.colorDepthCode) =
      (deriveLayer p).tileWidthPixels * (deriveLayer p).tileHeightPixels := by
  obtain ⟨hdepth, -, -, -, -, ⟨htilew, -⟩, -, -, -⟩ := p.valid_iff.1 hp
  have hwhole : 8 ∣ 2 ^ p.tileWidthLog2 * 2 ^ p.tileHeightLog2 :=
    Dvd.dvd.mul_right (Nat.pow_dvd_pow 2 htilew) _
  rw [deriveLayer_tileBytes, packedBytes_mul_pixelsPerByte (two_pow_mul_pixelsPerByte hdepth) hwhole]
  rfl

/-- Pixel `j` of a tile is packed pixel `j` of the run that starts at the tile (R216). -/
theorem tilePixels_getD (m : Memory) (ti : Nat) {j : Nat}
    (hj : j < (deriveLayer p).tileWidthPixels * (deriveLayer p).tileHeightPixels) :
    ((tilePixels m p ti).getD j 0#8).toNat =
      packedIndex m (p.tileBase + ti * (deriveLayer p).tileBytes) (2 ^ p.colorDepthCode) j := by
  obtain ⟨hdepth, -⟩ := p.valid_iff.1 hp
  have hper : 0 < pixelsPerByte (2 ^ p.colorDepthCode) :=
    Nat.pos_of_mul_pos_left (by rw [two_pow_mul_pixelsPerByte hdepth]; decide)
  have hbyte : j / pixelsPerByte (2 ^ p.colorDepthCode) < (deriveLayer p).tileBytes :=
    (Nat.div_lt_iff_lt_mul hper).2 (by rwa [tileBytes_mul_pixelsPerByte hp])
  rw [tilePixels, deriveLayer_bitsPerPixel, unpack_memRead hj hbyte hper]
  exact lane_toNat (two_pow_code_le_eight hdepth) _ _

end

/-! ## One map cell (R215 to R220) -/

/-- Row `y` and column `x` of rows of `w` cells make a place below the cells of `n` rows. -/
theorem rowMajor_lt {x y w n : Nat} (hx : x < w) (hy : y < n) : y * w + x < w * n :=
  calc y * w + x
    _ < (y + 1) * w := by rw [Nat.succ_mul]; omega
    _ ≤ w * n := by rw [Nat.mul_comm w]; exact Nat.mul_le_mul_right w hy

/-- The position in the tile that a destination position shows is in the tile. -/
theorem MapCell.sourceIndex_lt (c : MapCell) {tw th tx ty : Nat} (hx : tx < tw) (hy : ty < th) :
    c.sourceIndex tw th tx ty < tw * th := by
  cases c with
  | text => exact rowMajor_lt hx hy
  | tile _ hf vf _ =>
    refine rowMajor_lt ?_ ?_
    · split <;> omega
    · split <;> omega

/-- A cell of a 1 bit per pixel map is a text cell (30_encoding R98, R99). -/
theorem decodeCell_of_text {p : LayerProperties} (h : 2 ^ p.colorDepthCode = 1) (c0 c1 : Byte) :
    decodeCell p c0 c1 =
      if p.textMode256Color then .text c0.toNat c1.toNat 0 else .text c0.toNat (c1.toNat % 16) (c1.toNat / 16) := by
  have hfg : bits c1 3 0 = c1.toNat % 16 := (bits_eq_div_mod ..).trans (by simp)
  have hbg : bits c1 7 4 = c1.toNat / 16 := bits_top c1 (by decide)
  rw [decodeCell, if_pos ((deriveLayer_bitsPerPixel p).trans h), hfg, hbg]

/-- A cell of a map of more bits per pixel is a tile cell (30_encoding R100). -/
theorem decodeCell_of_tile {p : LayerProperties} (h : 2 ^ p.colorDepthCode ≠ 1) (c0 c1 : Byte) :
    decodeCell p c0 c1 =
      .tile (c0.toNat + 256 * (c1.toNat % 4)) (decide (c1.toNat / 4 % 2 = 1)) (decide (c1.toNat / 8 % 2 = 1))
        (c1.toNat / 16) := by
  have htile : bits c1 1 0 = c1.toNat % 4 := (bits_eq_div_mod ..).trans (by simp)
  have hsel : bits c1 7 4 = c1.toNat / 16 := bits_top c1 (by decide)
  have hbpp : ¬(deriveLayer p).bitsPerPixel = 1 := fun e => h ((deriveLayer_bitsPerPixel p).symm.trans e)
  rw [decodeCell, if_neg hbpp, byte_or_shiftLeft_eq, htile, hsel, bit_eq_decide, bit_eq_decide]
  rfl

/-- The pixel at a position of a cell has the colour index the rules compute (R215 to R220). -/
theorem tilePixel_eq {p : LayerProperties} (hp : p.valid = true) (m : Memory) (px : Vector Colour 256) (cx cy : Nat)
    {tx ty : Nat} (hx : tx < 2 ^ p.tileWidthLog2) (hy : ty < 2 ^ p.tileHeightLog2) :
    tilePixel m px p cx cy tx ty = colourAt px (tileColourIndex m p cx cy tx ty) := by
  have hj : (fetchCell m p cx cy).sourceIndex (deriveLayer p).tileWidthPixels (deriveLayer p).tileHeightPixels tx ty <
      (deriveLayer p).tileWidthPixels * (deriveLayer p).tileHeightPixels := (fetchCell m p cx cy).sourceIndex_lt hx hy
  rw [tilePixel, tilePixels_getD hp m _ hj, deriveLayer_tileBytes]
  congr 1
  rw [fetchCell]
  by_cases hbpp : 2 ^ p.colorDepthCode = 1
  · rw [decodeCell_of_text hbpp]
    cases htext : p.textMode256Color with
    | true => simp only [tileColourIndex, hbpp, htext]; rfl
    | false => simp only [tileColourIndex, hbpp, htext]; rfl
  · rw [decodeCell_of_tile hbpp]
    simp only [tileColourIndex, if_neg hbpp, MapCell.sourceIndex, decide_eq_true_eq]
    rfl

/-- The colour index of a position is an index of the palette (R212, R219, R220). -/
theorem tileColourIndex_lt {p : LayerProperties} (hp : p.valid = true) (m : Memory) (cx cy tx ty : Nat) :
    tileColourIndex m p cx cy tx ty < 256 := by
  obtain ⟨hdepth, -⟩ := p.valid_iff.1 hp
  have hc1 (a : Nat) : (Memory.read m a).toNat < 256 := (Memory.read m a).isLt
  simp only [tileColourIndex]
  split
  · have h := hc1 ((p.mapBase + 2 * (cy * 2 ^ p.mapWidthLog2 + cx) + 1) % 0x20000)
    split_ifs <;> omega
  · exact poff_lt (packedIndex_lt (two_pow_code_le_eight hdepth) ..) (Nat.div_lt_of_lt_mul (hc1 _))

/-! ## The rendered buffer -/

/-- `RLAYER` completes with its layer rendered, and changes nothing but the result port (R210). -/
theorem exec_rlayer_eq (id : BitVec 8) (s : State) :
    exec (.rlayer id) s = .next (s.setResult (.pixels (renderLayer s.vram s.pal (s.layer (layerOf id))))) := rfl

theorem renderLayer_of_bitmap (m : Memory) (pal : Vector Cell12 256) {B : LayerBlock}
    (h : (decodeLayer B).bitmapMode = true) : renderLayer m pal B = bitmapRender m (palx pal) (decodeLayer B) :=
  if_pos h

theorem renderLayer_of_tile (m : Memory) (pal : Vector Cell12 256) {B : LayerBlock}
    (h : (decodeLayer B).bitmapMode = false) : renderLayer m pal B = tileRender m (palx pal) (decodeLayer B) :=
  if_neg (ne_true_of_eq_false h)

/-- An output pixel is the expansion of a palette cell (R211). -/
theorem colourAt_palx_eq_expand (s : State) (ci : Nat) :
    ∃ i : Fin 256, colourAt (palx s.pal) ci = expand (s.palCell i) :=
  ⟨⟨ci % 256, Nat.mod_lt _ (by decide)⟩, by simp [colourAt, palx, State.palCell]⟩

/-- Every pixel of a rendered layer is the expansion of a palette cell (R224). -/
theorem mem_renderLayer {s : State} {B : LayerBlock} {c : Colour} (hc : c ∈ (renderLayer s.vram s.pal B).data) :
    ∃ i : Fin 256, c = expand (s.palCell i) := by
  cases hmode : (decodeLayer B).bitmapMode with
  | true =>
    rw [renderLayer_of_bitmap _ _ hmode] at hc
    obtain ⟨_, -, rfl⟩ := mem_tabulate hc
    exact colourAt_palx_eq_expand s _
  | false =>
    rw [renderLayer_of_tile _ _ hmode] at hc
    obtain ⟨_, -, rfl⟩ := mem_tabulate hc
    exact colourAt_palx_eq_expand s _

/-- Pixel `i` of a bitmap is pixel `i` of the linear run, with the quirk (R213). -/
theorem bitmapRender_getElem? {p : LayerProperties} (hp : p.valid = true) (m : Memory) (px : Vector Colour 256)
    {i : Nat} (hi : i < (deriveLayer p).bitmapWidthPixels * Config.bitmapHeight) :
    (bitmapRender m px p).data[i]? =
      some (colourAt px
        (poff (packedIndex m p.tileBase (2 ^ p.colorDepthCode) i) (deriveLayer p).paletteSelector)) := by
  obtain ⟨hdepth, -⟩ := p.valid_iff.1 hp
  rw [bitmapRender, tabulate_getElem? _ hi, deriveLayer_bitsPerPixel,
    linearIndex_eq_packedIndex (two_pow_code_le_eight hdepth)]

/-- The place of a position in a row of cells gives the cell and the position in it back. -/
theorem rowMajor_div_mod {c t w : Nat} (h : t < w) : (c * w + t) / w = c ∧ (c * w + t) % w = t :=
  (Nat.div_mod_unique (Nat.zero_lt_of_lt h)).2 ⟨by rw [Nat.mul_comm, Nat.add_comm], h⟩

/-- The cells tile the buffer: the place of a position of a cell in the buffer shows that position (R214, R221). -/
theorem tileRender_getElem? (m : Memory) (px : Vector Colour 256) (p : LayerProperties) {cx cy tx ty : Nat}
    (hcx : cx < 2 ^ p.mapWidthLog2) (hcy : cy < 2 ^ p.mapHeightLog2) (htx : tx < 2 ^ p.tileWidthLog2)
    (hty : ty < 2 ^ p.tileHeightLog2) :
    (tileRender m px p).data[(cy * 2 ^ p.tileHeightLog2 + ty) * (tileRender m px p).width +
      (cx * 2 ^ p.tileWidthLog2 + tx)]? = some (tilePixel m px p cx cy tx ty) := by
  have hcolumn := rowMajor_lt htx hcx
  have hrow := rowMajor_lt hty hcy
  obtain ⟨hi_div, hi_mod⟩ := rowMajor_div_mod (c := cy * 2 ^ p.tileHeightLog2 + ty) hcolumn
  obtain ⟨hx_div, hx_mod⟩ := rowMajor_div_mod (c := cx) htx
  obtain ⟨hy_div, hy_mod⟩ := rowMajor_div_mod (c := cy) hty
  refine (tabulate_getElem? _ (rowMajor_lt hcolumn hrow)).trans ?_
  simp only [deriveLayer, hi_div, hi_mod, hx_div, hx_mod, hy_div, hy_mod]

/-- Settles O28: the place of a position in the buffer shows that position of its cell, and the pixel there has the
colour index of the rules. -/
theorem tileModeRendersEveryCell : Obligations.TileModeRendersEveryCell := by
  intro id s l hl p tw th hmode
  obtain rfl := eq_layerOf hl
  have hp : p.valid = true := decodeLayer_valid _
  obtain ⟨-, -, hmapw, hmaph, -, htilew, htileh, -, -⟩ := p.valid_iff.1 hp
  obtain ⟨hwlo, hwhi⟩ := mapSide_bounds hmapw
  obtain ⟨hhlo, hhhi⟩ := mapSide_bounds hmaph
  obtain ⟨hbytes_lo, hbytes_hi⟩ := tileBytes_bounds hp
  obtain ⟨hpixels_lo, hpixels_hi⟩ := mapPixels_bounds hp
  have hlength : (tileRender s.vram (palx s.pal) p).data.length =
      tw * 2 ^ p.mapWidthLog2 * (th * 2 ^ p.mapHeightLog2) := tabulate_length ..
  refine ⟨tileRender s.vram (palx s.pal) p, ?_, tileSide_eq htilew, tileSide_eq htileh, hwlo, hwhi, hhlo, hhhi,
    hbytes_lo, hbytes_hi, rfl, rfl, hlength, hpixels_lo.trans_eq hlength.symm, hlength.trans_le hpixels_hi,
    fun cx hcx cy hcy tx htx ty hty => ?_⟩
  · rw [exec_rlayer_eq, renderLayer_of_tile _ _ hmode]
  · have hindex := tileColourIndex_lt hp s.vram cx cy tx ty
    refine ⟨?_, hindex⟩
    rw [tileRender_getElem? _ _ _ hcx hcy htx hty, tilePixel_eq hp _ _ _ _ htx hty, colourAt_palx _ hindex]

/-- Settles O29: pixel `i` is pixel `i` of the linear run, and its shifted index is one of the palette's. -/
theorem bitmapModeRendersTheLinearRun : Obligations.BitmapModeRendersTheLinearRun := by
  intro id s l hl p hmode
  obtain rfl := eq_layerOf hl
  have hp : p.valid = true := decodeLayer_valid _
  obtain ⟨hdepth, -⟩ := p.valid_iff.1 hp
  refine ⟨bitmapRender s.vram (palx s.pal) p, ?_, rfl, rfl, tabulate_length .., fun i hi => ?_⟩
  · rw [exec_rlayer_eq, renderLayer_of_bitmap _ _ hmode]
  · have hindex := poff_lt (packedIndex_lt (two_pow_code_le_eight hdepth) s.vram p.tileBase i)
      (Nat.mod_lt (s.layer (layerOf id))[4].toNat (by decide : 0 < 16))
    refine ⟨?_, hindex⟩
    rw [bitmapRender_getElem? hp _ _ hi, deriveLayer_paletteSelector, colourAt_palx _ hindex]

/-- Settles O30: the sizes of the mode's render in numbers, and every pixel a lookup in the expanded palette. -/
theorem layerRenderIsTotal : Obligations.LayerRenderIsTotal := by
  intro id s l hl B
  obtain rfl := eq_layerOf hl
  refine ⟨rfl, _, exec_rlayer_eq id s, (renderLayer_wf ..).1, fun c hc => mem_renderLayer hc, fun hmode => ?_,
    fun hmode => ?_⟩
  · have hwidth : (bitmapRender s.vram (palx s.pal) (decodeLayer B)).width =
        if B[2].toNat % 2 = 1 then 640 else 320 :=
      congrArg LayerDerived.bitmapWidthPixels (deriveLayer_decodeLayer_eq B)
    rw [renderLayer_of_bitmap _ _ ((decodeLayer_bitmapMode B).trans (decide_eq_true hmode))]
    refine ⟨hwidth, rfl, Nat.mul_le_mul_right _ ?_⟩
    rw [hwidth]
    split <;> decide
  · have hclear : ¬B[0].toNat / 4 % 2 = 1 := by omega
    have hbounds := mapPixels_bounds (decodeLayer_valid B)
    rw [renderLayer_of_tile _ _ ((decodeLayer_bitmapMode B).trans (decide_eq_false hclear))]
    have hwidth : (tileRender s.vram (palx s.pal) (decodeLayer B)).width =
        2 ^ (B[2].toNat % 2 + 3) * 2 ^ (B[0].toNat / 16 % 4 + 5) := by rw [decodeLayer_eq]; rfl
    have hheight : (tileRender s.vram (palx s.pal) (decodeLayer B)).height =
        2 ^ (B[2].toNat / 2 % 2 + 3) * 2 ^ (B[0].toNat / 64 + 5) := by rw [decodeLayer_eq]; rfl
    exact ⟨hwidth, hheight, hbounds⟩

/-! ## The end-to-end scenario (R225) -/

/-- Both nibbles of 0x33 are the index 3. -/
theorem packedIndex_of_read_0x33 {m : Memory} {base j : Nat}
    (h : Memory.read m ((base + j / 2) % 0x20000) = 0x33#8) : packedIndex m base 4 j = 3 := by
  have hbyte : Memory.read m ((base + j / (8 / 4)) % 0x20000) = 0x33#8 := h
  rw [packedIndex, hbyte]
  obtain hj | hj : j % (8 / 4) = 0 ∨ j % (8 / 4) = 1 := Nat.mod_two_eq_zero_or_one j
  · rw [hj]; rfl
  · rw [hj]; rfl

/-- A cell of tile 1 with selector 2 and no flips shows palette cell 35 where the tile's index is 3. -/
theorem tileColourIndex_of_endToEnd {m : Memory} {p : LayerProperties} {X Y : Nat} (hX : X < 8) (hY : Y < 8)
    (htilew : p.tileWidthLog2 = 3) (htileh : p.tileHeightLog2 = 3) (hdepth : p.colorDepthCode = 2)
    (hlow : Memory.read m (p.mapBase % 0x20000) = 0x01#8)
    (hhigh : Memory.read m ((p.mapBase + 1) % 0x20000) = 0x20#8)
    (htile : ∀ j < 32, Memory.read m ((p.tileBase + 32 + j) % 0x20000) = 0x33#8) :
    tileColourIndex m p 0 0 X Y = 35 := by
  have hindex : packedIndex m (p.tileBase + 32) 4 (Y * 8 + X) = 3 :=
    packedIndex_of_read_0x33 (htile _ (by omega))
  simp [tileColourIndex, htilew, htileh, hdepth, hlow, hhigh, hindex, poff]

/-- Settles O31: the scenario is the cell (0,0) of tile mode, whose positions all have colour index 35. -/
theorem endToEndTileBlock : Obligations.EndToEndTileBlock := by
  intro id s l hl p hmapw hmaph htilew htileh hdepth hmode hlow hhigh htile
  obtain ⟨buf, hexec, -, -, -, -, -, -, -, -, hwidth, hheight, -, -, -, hpixel⟩ :=
    tileModeRendersEveryCell id s l hl hmode
  have hw : buf.width = 256 := by rw [hwidth, htilew, hmapw]; rfl
  have hh : buf.height = 256 := by rw [hheight, htileh, hmaph]; rfl
  refine ⟨buf, hexec, hw, hh, fun X hX Y hY => ?_⟩
  obtain ⟨hcell, -⟩ := hpixel 0 (Nat.two_pow_pos _) 0 (Nat.two_pow_pos _) X (by rwa [htilew]) Y (by rwa [htileh])
  rw [tileColourIndex_of_endToEnd hX hY htilew htileh hdepth hlow hhigh htile, hw] at hcell
  simpa [State.palCell] using hcell

/-! ## What a render ignores (R222) -/

/-- In tile mode the scroll fields play no part. -/
theorem tileRender_scroll (m : Memory) (px : Vector Colour 256) (p : LayerProperties) (h v : Nat) :
    tileRender m px { p with hScroll := h, vScroll := v } = tileRender m px p := rfl

/-- A bitmap is a function of the depth, the tile base, the tile width and the palette selector. -/
theorem bitmapRender_congr (m : Memory) (px : Vector Colour 256) {p q : LayerProperties}
    (hdepth : q.colorDepthCode = p.colorDepthCode) (htile : q.tileBase = p.tileBase)
    (htilew : q.tileWidthLog2 = p.tileWidthLog2)
    (hsel : (deriveLayer q).paletteSelector = (deriveLayer p).paletteSelector) :
    bitmapRender m px q = bitmapRender m px p := by
  have hwidth : (deriveLayer q).bitmapWidthPixels = (deriveLayer p).bitmapWidthPixels := by
    simp only [deriveLayer, htilew]
  simp only [bitmapRender, deriveLayer_bitsPerPixel, hdepth, htile, hwidth, hsel]

/-- Two blocks that render alike give the same result whichever of them the layer holds. -/
theorem exec_rlayer_setLayer_of_renderLayer_eq {id : BitVec 8} {s : State} {C : LayerBlock}
    (h : renderLayer s.vram s.pal C = renderLayer s.vram s.pal (s.layer (layerOf id))) :
    ∃ buf : PixelBuffer, exec (.rlayer id) s = .next (s.setResult (.pixels buf)) ∧
      exec (.rlayer id) (s.setLayer (layerOf id) C) =
        .next ((s.setLayer (layerOf id) C).setResult (.pixels buf)) := by
  refine ⟨_, exec_rlayer_eq id s, ?_⟩
  rw [exec_rlayer_eq, State.layer_setLayer_same, State.setLayer_vram, State.setLayer_pal, h]

/-- Settles O32: in each mode the two blocks render alike. -/
theorem layerRenderIgnoresScrollAndUnusedFields : Obligations.LayerRenderIgnoresScrollAndUnusedFields := by
  intro id s l C hl p p'
  obtain rfl := eq_layerOf hl
  refine ⟨fun hmode hrecord => ?_, fun hmode hmode' hdepth htile htilew hsel => ?_⟩
  · have hmode' : p'.bitmapMode = false := by rw [hrecord]; exact hmode
    apply exec_rlayer_setLayer_of_renderLayer_eq
    calc renderLayer s.vram s.pal C
      _ = tileRender s.vram (palx s.pal) p' := renderLayer_of_tile _ _ hmode'
      _ = tileRender s.vram (palx s.pal) { p with hScroll := p'.hScroll, vScroll := p'.vScroll } :=
        congrArg _ hrecord
      _ = tileRender s.vram (palx s.pal) p := tileRender_scroll ..
      _ = renderLayer s.vram s.pal (s.layer (layerOf id)) := (renderLayer_of_tile _ _ hmode).symm
  · have hselector : (deriveLayer p').paletteSelector = (deriveLayer p).paletteSelector := by
      rw [deriveLayer_paletteSelector, deriveLayer_paletteSelector, hsel]
    apply exec_rlayer_setLayer_of_renderLayer_eq
    rw [renderLayer_of_bitmap _ _ hmode', renderLayer_of_bitmap _ _ hmode,
      bitmapRender_congr _ _ hdepth htile htilew hselector]

end Sys2Proof.Machine
end

section
/-! Proofs, family 45_sprite_compositor: the pixels `RSPRITE` returns (R240, R241), and the bytes of the sprite block
they do not depend on (R242, R243). -/

namespace Sys2Proof.Machine

/-! ## Packed pixels at a sprite's depth -/

/-- Pixel `i` unpacked from whole bytes of video memory is packed pixel `i` of the run they form. -/
theorem unpack_wholeBytes_getElem? {bpp n i : Nat} (hfill : bpp * pixelsPerByte bpp = 8) (hn : 8 ∣ n) (hi : i < n)
    (m : Memory) (addr : Nat) :
    ∃ b : Byte, (unpack bpp n (memRead m addr (n * bpp / 8)))[i]? = some b ∧ b.toNat = packedIndex m addr bpp i := by
  have hper : 0 < pixelsPerByte bpp := Nat.pos_of_mul_pos_left (by rw [hfill]; decide)
  have hbpp : bpp ≤ 8 := hfill ▸ Nat.le_mul_of_pos_right bpp hper
  have hwhole : n * bpp / 8 * pixelsPerByte bpp = n := packedBytes_mul_pixelsPerByte hfill hn
  have hbyte : i / pixelsPerByte bpp < n * bpp / 8 := (Nat.div_lt_iff_lt_mul hper).2 (by rwa [hwhole])
  have hlength : i < (unpack bpp n (memRead m addr (n * bpp / 8))).length := by
    rwa [unpack_length, memRead_length, hwhole, Nat.min_self]
  refine ⟨_, List.getElem?_eq_getElem hlength, ?_⟩
  rw [← List.getD_eq_getElem _ 0#8 hlength, unpack_memRead hi hbyte hper]
  exact lane_toNat hbpp _ _

theorem deriveSprite_bitsPerPixel (p : SpriteProperties) :
    (deriveSprite p).bitsPerPixel = if p.colorMode then 8 else 4 := four_shiftLeft_toNat _

/-- The pixels of a byte fill it in both colour modes (30_encoding R103). -/
theorem spriteDepth_mul_pixelsPerByte (p : SpriteProperties) :
    (deriveSprite p).bitsPerPixel * pixelsPerByte (deriveSprite p).bitsPerPixel = 8 := by
  rw [deriveSprite_bitsPerPixel]
  cases p.colorMode <;> rfl

theorem deriveSprite_pixelCount (p : SpriteProperties) :
    (deriveSprite p).pixelCount = 2 ^ p.widthLog2 * 2 ^ p.heightLog2 := Nat.pow_add ..

/-- A sprite is at least 8 pixels wide, so its pixels fill whole bytes in both colour modes (10_state R34). -/
theorem eight_dvd_pixelCount {p : SpriteProperties} (hp : p.valid = true) : 8 ∣ (deriveSprite p).pixelCount := by
  obtain ⟨-, -, -, -, -, -, ⟨hwidth, -⟩, -⟩ := p.valid_iff.1 hp
  rw [deriveSprite_pixelCount]
  exact Dvd.dvd.mul_right (Nat.pow_dvd_pow 2 hwidth) _

/-! ## The rendered buffer -/

/-- `RSPRITE` completes with its sprite rendered, and changes nothing but the result port (R240). -/
theorem exec_rsprite_eq (id : BitVec 8) (s : State) :
    exec (.rsprite id) s = .next (s.setResult (.pixels (renderSprite s.vram s.pal (s.sprite (spriteOf id))))) := rfl

/-- Pixel `i` of a sprite is packed pixel `i` of the run at its address, the palette offset added to every index
(R240, R241). -/
theorem renderSprite_getElem? (m : Memory) (pal : Vector Cell12 256) (B : SpriteBlock) {i : Nat}
    (hi : i < (deriveSprite (decodeSprite B)).pixelCount) :
    (renderSprite m pal B).data[i]? = some (colourAt (palx pal)
      ((packedIndex m (decodeSprite B).address (deriveSprite (decodeSprite B)).bitsPerPixel i +
        (decodeSprite B).paletteOffset) % 256)) := by
  obtain ⟨b, hb, hindex⟩ := unpack_wholeBytes_getElem? (spriteDepth_mul_pixelsPerByte (decodeSprite B))
    (eight_dvd_pixelCount (decodeSprite_valid B)) hi m (decodeSprite B).address
  rw [renderSprite, List.getElem?_map, hb, Option.map_some, hindex]

/-- Settles O33: every pixel is a lookup of the shifted packed index in the expanded palette. -/
theorem spriteRendersWithUnconditionalOffset : Obligations.SpriteRendersWithUnconditionalOffset := by
  intro id s k hk p
  obtain rfl := eq_spriteOf hk
  refine ⟨rfl, _, exec_rsprite_eq id s, rfl, rfl, (renderSprite_wf ..).1, fun i hi => ?_⟩
  have hpixel : i < (deriveSprite p).pixelCount := by rwa [deriveSprite_pixelCount]
  rw [renderSprite_getElem? _ _ _ hpixel, colourAt_palx _ (Nat.mod_lt _ (by decide)), deriveSprite_bitsPerPixel]

/-! ## What a render ignores (R242, R243) -/

/-- A rendered sprite is a function of its address, colour mode, palette offset and size. -/
theorem renderSprite_congr (m : Memory) (pal : Vector Cell12 256) {B C : SpriteBlock}
    (haddress : (decodeSprite C).address = (decodeSprite B).address)
    (hmode : (decodeSprite C).colorMode = (decodeSprite B).colorMode)
    (hoffset : (decodeSprite C).paletteOffset = (decodeSprite B).paletteOffset)
    (hwidth : (decodeSprite C).widthLog2 = (decodeSprite B).widthLog2)
    (hheight : (decodeSprite C).heightLog2 = (decodeSprite B).heightLog2) :
    renderSprite m pal C = renderSprite m pal B := by
  simp only [renderSprite, deriveSprite, haddress, hmode, hoffset, hwidth, hheight]

/-- The fields a render uses stand in bytes 0, 1 and 7 of the block (30_encoding R96). -/
theorem renderSprite_eq_of_bytes (m : Memory) (pal : Vector Cell12 256) {B C : SpriteBlock} (h0 : C[0] = B[0])
    (h1 : C[1] = B[1]) (h7 : C[7] = B[7]) : renderSprite m pal C = renderSprite m pal B := by
  apply renderSprite_congr
  case haddress => simp only [decodeSprite, h0, h1]
  case hmode => simp only [decodeSprite, h1]
  all_goals simp only [decodeSprite, h7]

/-- Settles O34: the render is a function of the memory, the palette and bytes 0, 1 and 7 of the one sprite. -/
theorem spriteRenderIgnoresFlipsAndPosition : Obligations.SpriteRenderIgnoresFlipsAndPosition := by
  intro id s s' k hk hvram hpal h0 h1 h7
  obtain rfl := eq_spriteOf hk
  refine ⟨_, exec_rsprite_eq id s, ?_⟩
  rw [exec_rsprite_eq, hvram, hpal, renderSprite_eq_of_bytes _ _ h0 h1 h7]

end Sys2Proof.Machine
end

section
/-! Proofs, family 46_palette: expansion and quantization as numbers (R250, R251) and as near-inverses (R255), what
`PGET` returns (R252), and what the two palette stores leave (R253, R254, R256). -/

namespace Sys2Proof.Machine

/-! ## Expansion and quantization as numbers (R250, R251) -/

/-- Bits put above `n` others count `2 ^ n` each. -/
theorem toNat_append_eq_add {m n : Nat} (x : BitVec m) (y : BitVec n) :
    (x ++ y).toNat = x.toNat * 2 ^ n + y.toNat := by
  rw [BitVec.toNat_append, ← Nat.shiftLeft_add_eq_or_of_lt y.isLt, Nat.shiftLeft_eq]

/-- A nibble put beside itself is 17 times the nibble: R250's `v | v << 4`. -/
theorem toNat_nibble_append_self (v : BitVec 4) : (v ++ v).toNat = v.toNat * 17 := by
  rw [toNat_append_eq_add]; omega

/-- The nibble of a word that starts at bit `lo`. -/
theorem toNat_nibble {n : Nat} (x : BitVec n) (lo : Nat) : (x.extractLsb' lo 4).toNat = x.toNat / 2 ^ lo % 16 := by
  rw [BitVec.extractLsb'_toNat, Nat.shiftRight_eq_div_pow]

/-- An expanded cell: 17 times each channel, and alpha 255 (R250). -/
theorem expand_toNat (c : Cell12) :
    (expand c).toNat =
      c.toNat / 256 % 16 * 17 * 2 ^ 24 + c.toNat / 16 % 16 * 17 * 2 ^ 16 + c.toNat % 16 * 17 * 2 ^ 8 + 255 := by
  simp only [expand, toNat_append_eq_add _ (_ : BitVec 8), toNat_nibble_append_self, toNat_nibble, BitVec.toNat_ofNat]
  omega

/-- A quantized colour: the high nibble of each channel, the rest truncated (R251). -/
theorem quantize_toNat (p : Colour) :
    (quantize p).toNat = p.toNat / 2 ^ 28 * 256 + p.toNat / 2 ^ 20 % 16 * 16 + p.toNat / 2 ^ 12 % 16 := by
  simp only [quantize, toNat_append_eq_add, toNat_nibble]
  omega

/-- The cell a value port carries is the value modulo 2^12 (30_encoding R81). -/
theorem cellOf_eq (val : BitVec 32) : cellOf val = BitVec.ofNat 12 val.toNat := rfl

/-- The channels of the cell on a value port are nibbles of the value itself: the bits above the cell do not matter. -/
theorem expand_cellOf_toNat (val : BitVec 32) :
    (expand (cellOf val)).toNat =
      val.toNat / 256 % 16 * 17 * 2 ^ 24 + val.toNat / 16 % 16 * 17 * 2 ^ 16 + val.toNat % 16 * 17 * 2 ^ 8 + 255 := by
  rw [expand_toNat, cellOf_eq, BitVec.toNat_ofNat]; omega

/-! ## What each palette operation answers -/

theorem exec_pexp_eq (val : BitVec 32) (s : State) :
    exec (.pexp val) s = .next (s.setResult (.colour (expand (cellOf val)))) := rfl

theorem exec_pqnt_eq (val : BitVec 32) (s : State) :
    exec (.pqnt val) s = .next (s.setResult (.cell (quantize val))) := rfl

theorem exec_pget_eq (s : State) : exec .pget s = .next (s.setResult (.colours (palx s.pal))) := rfl

theorem exec_psetc_eq (id : BitVec 8) (val : BitVec 32) (s : State) :
    exec (.psetc id val) s = .next ((s.setPalCell (palIndexOf id) (cellOf val)).setResult .nothing) := rfl

theorem exec_psetq_eq (id : BitVec 8) (val : BitVec 32) (s : State) :
    exec (.psetq id val) s = .next ((s.setPalCell (palIndexOf id) (quantize val)).setResult .nothing) := rfl

/-- Settles O35: both results are the words of the numbers `expand_cellOf_toNat` and `quantize_toNat` give. -/
theorem expandAndQuantizeValues : Obligations.ExpandAndQuantizeValues := by
  intro val s
  refine ⟨rfl, rfl, ?_, ?_⟩
  · rw [exec_pexp_eq, ← expand_cellOf_toNat, BitVec.ofNat_toNat, BitVec.setWidth_eq]
  · rw [exec_pqnt_eq, ← quantize_toNat, BitVec.ofNat_toNat, BitVec.setWidth_eq]

/-! ## Expansion and quantization undo each other (R255) -/

/-- The three channels of a cell are the whole cell (30_encoding R101). -/
theorem cell_eq_channels (c : Cell12) :
    c.extractLsb' 8 4 ++ c.extractLsb' 4 4 ++ c.extractLsb' 0 4 = c := by
  iterate 2 rw [BitVec.extractLsb'_append_extractLsb'_eq_extractLsb' (by decide)]
  exact BitVec.extractLsb'_eq_self

/-- The nibbles of the three channels and the alpha are the whole colour (30_encoding R102). -/
theorem colour_eq_nibbles (p : Colour) :
    (p.extractLsb' 28 4 ++ p.extractLsb' 24 4) ++ (p.extractLsb' 20 4 ++ p.extractLsb' 16 4) ++
      (p.extractLsb' 12 4 ++ p.extractLsb' 8 4) ++ p.extractLsb' 0 8 = p := by
  iterate 6 rw [BitVec.extractLsb'_append_extractLsb'_eq_extractLsb' (by decide)]
  exact BitVec.extractLsb'_eq_self

/-- The channels of a quantized colour are the high nibbles of the colour's. -/
theorem quantize_channels (p : Colour) :
    (quantize p).extractLsb' 8 4 = p.extractLsb' 28 4 ∧ (quantize p).extractLsb' 4 4 = p.extractLsb' 20 4 ∧
    (quantize p).extractLsb' 0 4 = p.extractLsb' 12 4 := by
  simp only [quantize]
  refine ⟨?_, ?_, BitVec.extractLsb'_append_eq_right⟩
  · iterate 2 rw [BitVec.extractLsb'_append_eq_of_le (by decide)]
    exact BitVec.extractLsb'_eq_self
  · rw [BitVec.extractLsb'_append_eq_of_le (by decide)]
    exact BitVec.extractLsb'_append_eq_right

/-- The high nibbles of an expanded cell's channels are the cell's channels. -/
theorem expand_highNibbles (c : Cell12) :
    (expand c).extractLsb' 28 4 = c.extractLsb' 8 4 ∧ (expand c).extractLsb' 20 4 = c.extractLsb' 4 4 ∧
    (expand c).extractLsb' 12 4 = c.extractLsb' 0 4 := by
  simp only [expand]
  refine ⟨?_, ?_, ?_⟩
  · iterate 3 rw [BitVec.extractLsb'_append_eq_of_le (by decide)]
    exact BitVec.extractLsb'_append_eq_left
  · iterate 2 rw [BitVec.extractLsb'_append_eq_of_le (by decide)]
    rw [BitVec.extractLsb'_append_eq_of_add_le (by decide)]
    exact BitVec.extractLsb'_append_eq_left
  · rw [BitVec.extractLsb'_append_eq_of_le (by decide), BitVec.extractLsb'_append_eq_of_add_le (by decide)]
    exact BitVec.extractLsb'_append_eq_left

/-- Quantization keeps the high nibble of each channel, which expansion made the channel of the cell. -/
theorem quantize_expand (c : Cell12) : quantize (expand c) = c := by
  obtain ⟨hred, hgreen, hblue⟩ := expand_highNibbles c
  rw [quantize, hred, hgreen, hblue, cell_eq_channels]

/-- Two words put together are equal when their parts are. -/
theorem bitVec_append_inj_iff {m n : Nat} {x x' : BitVec m} {y y' : BitVec n} :
    x ++ y = x' ++ y' ↔ x = x' ∧ y = y' := by
  refine ⟨fun h => ⟨?_, ?_⟩, fun ⟨hx, hy⟩ => by rw [hx, hy]⟩
  · simpa only [BitVec.extractLsb'_append_eq_left] using congrArg (BitVec.extractLsb' n m) h
  · simpa only [BitVec.extractLsb'_append_eq_right] using congrArg (BitVec.extractLsb' 0 n) h

/-- Expansion puts the high nibble of each channel in place of the low one that quantization dropped, and 0xFF in place
of the alpha. -/
theorem expand_quantize_eq_iff_nibbles (p : Colour) :
    expand (quantize p) = p ↔
      p.extractLsb' 28 4 = p.extractLsb' 24 4 ∧ p.extractLsb' 20 4 = p.extractLsb' 16 4 ∧
      p.extractLsb' 12 4 = p.extractLsb' 8 4 ∧ 0xFF#8 = p.extractLsb' 0 8 := by
  obtain ⟨hred, hgreen, hblue⟩ := quantize_channels p
  conv_lhs => rhs; rw [← colour_eq_nibbles p]
  simp only [expand, hred, hgreen, hblue]
  rw [bitVec_append_inj_iff (m := 24) (n := 8), bitVec_append_inj_iff (m := 16) (n := 8),
    bitVec_append_inj_iff (m := 8) (n := 8)]
  simp only [bitVec_append_inj_iff (m := 4) (n := 4), true_and, and_assoc]

/-- The same condition in numbers, as R255 states it. -/
theorem expand_quantize_eq_iff (p : Colour) :
    expand (quantize p) = p ↔
      p.toNat / 2 ^ 28 = p.toNat / 2 ^ 24 % 16 ∧ p.toNat / 2 ^ 20 % 16 = p.toNat / 2 ^ 16 % 16 ∧
      p.toNat / 2 ^ 12 % 16 = p.toNat / 2 ^ 8 % 16 ∧ p.toNat % 256 = 0xFF := by
  have htop : p.toNat / 2 ^ 28 % 16 = p.toNat / 2 ^ 28 := by omega
  have halpha : (p.extractLsb' 0 8).toNat = p.toNat % 256 := by rw [BitVec.extractLsb'_toNat, Nat.shiftRight_zero]
  rw [expand_quantize_eq_iff_nibbles]
  simp only [← BitVec.toNat_inj, toNat_nibble, htop, halpha, BitVec.toNat_ofNat]
  omega

/-- Settles O36: both compositions are idempotent because quantization undoes the expansion inside them. -/
theorem paletteConversionLaws : Obligations.PaletteConversionLaws :=
  ⟨quantize_expand, expand_quantize_eq_iff, fun p => congrArg expand (quantize_expand (quantize p)),
    fun c => congrArg expand (quantize_expand c)⟩

/-! ## Reading the palette back (R252, R256) -/

/-- Element `i` of the expanded palette is the expansion of cell `i` (10_state R25). -/
theorem palx_getElem (s : State) (i : Fin 256) : (palx s.pal)[i] = expand (s.palCell i) :=
  Vector.getElem_map ..

/-- Settles O37: the value `PGET` returns is the expanded palette. -/
theorem paletteReadReturnsEveryExpansion : Obligations.PaletteReadReturnsEveryExpansion := fun s =>
  ⟨rfl, palx s.pal, exec_pget_eq s, palx_getElem s⟩

/-- The cell an id port names. -/
theorem eq_palIndexOf {id : BitVec 8} {k : Fin 256} (h : k.val = id.toNat) : k = palIndexOf id := Fin.ext h

/-- `State.palCell_setPalCell` read from the cell looked at, as R253 states it. -/
theorem palCell_setPalCell_eq_ite (s : State) (k j : Fin 256) (c : Cell12) :
    (s.setPalCell k c).palCell j = if j = k then c else s.palCell j := by
  simp only [State.palCell_setPalCell, eq_comm]

/-- A cell of the expanded palette after a store: the expansion of the stored cell, or the old one (R253, R256). -/
theorem palx_setPalCell (s : State) (k j : Fin 256) (c : Cell12) :
    (palx (s.setPalCell k c).pal)[j] = if j = k then expand c else expand (s.palCell j) := by
  rw [palx_getElem, palCell_setPalCell_eq_ite, apply_ite expand]

/-- Settles O38: either operation leaves its cell at its index, and `PGET` reads the expanded palette of that state. -/
theorem paletteWritesOneCellAndItsExpansion : Obligations.PaletteWritesOneCellAndItsExpansion := by
  intro id val s k c i hk hi
  obtain rfl := eq_palIndexOf hk
  have hexec : exec i s = .next ((s.setPalCell (palIndexOf id) c).setResult .nothing) := by
    obtain ⟨rfl, rfl⟩ | ⟨rfl, rfl⟩ := hi
    · rw [exec_psetc_eq, cellOf_eq]
    · exact exec_psetq_eq id val s
  exact ⟨rfl, rfl, _, _, hexec, fun j => palCell_setPalCell_eq_ite s _ j c, rfl, rfl, rfl, rfl, rfl, exec_pget_eq _,
    fun j => palx_setPalCell s _ j c⟩

end Sys2Proof.Machine
end

section
/-! Proofs, family 47_region_preview: what `RREGION` returns from video memory and from the other sources (R270 to
R272), and that it is the bitmap renderer over the operands. -/

namespace Sys2Proof.Machine

/-! ## The source and the size of a view (R271, R272) -/

/-- The one admitted source is video memory: the two low bits of the id port are 0 (R271). -/
theorem wf_rregion_iff (id : BitVec 8) (addr : Offset) (w h : BitVec 13) (depth : BitVec 2) (sel : BitVec 4) :
    (Instr.rregion id addr w h depth sel).wf = true ↔ id.toNat % 4 = 0 := by
  rw [Instr.wf, beq_iff_eq, ← BitVec.toNat_inj, BitVec.extractLsb'_toNat, Nat.shiftRight_zero]
  rfl

/-- A side of a view is its operand brought between 1 and 4096 (R272). -/
theorem viewSide_eq (n : Nat) : clamp n 1 Config.maxViewSide = max 1 (min n 4096) := clamp_eq_max_min (by decide)

/-- Pixel `i` of a view is pixel `i` of the linear run, with the quirk (R270). -/
theorem renderRegion_getElem? (m : Memory) (pal : Vector Cell12 256) (addr w h : Nat) (depth : BitVec 2) (q : Nat)
    {i : Nat} (hi : i < clamp w 1 Config.maxViewSide * clamp h 1 Config.maxViewSide) :
    (renderRegion m pal addr w h (bppOf depth) q).data[i]? =
      some (colourAt (palx pal) (poff (packedIndex m addr (2 ^ depth.toNat) i) q)) := by
  rw [renderRegion, tabulate_getElem? _ hi, linearIndex_eq_packedIndex (bppOf_le depth), bppOf_eq_two_pow]

/-- Settles O40: the source decides whether there is a view, and pixel `i` of a view is pixel `i` of the run. -/
theorem regionPreviewRendersTheLinearRun : Obligations.RegionPreviewRendersTheLinearRun := by
  intro id addr w h depth sel s
  refine ⟨rfl, fun hid => ?_, fun hid => ?_⟩
  · refine ⟨renderRegion s.vram s.pal addr.toNat w.toNat h.toNat (bppOf depth) sel.toNat, ?_, viewSide_eq _,
      viewSide_eq _, tabulate_length .., fun i hi => ?_⟩
    · rw [exec_rregion_eq, if_pos ((wf_rregion_iff ..).2 hid), complete_eq]
    · have hindex := poff_lt (packedIndex_lt (bppOf_eq_two_pow depth ▸ bppOf_le depth) s.vram addr.toNat i) sel.isLt
      refine ⟨?_, hindex⟩
      rw [renderRegion_getElem? _ _ _ _ _ _ _ hi, colourAt_palx _ hindex]
  · rw [exec_rregion_eq, if_neg (mt (wf_rregion_iff ..).1 hid)]

/-! ## The view with a layer's own values is the layer's bitmap (R270) -/

/-- Two buffers of the same pixels show the same wherever both have a pixel. -/
theorem tabulate_getElem?_congr (w h h' : Nat) (f : Nat → Colour) {i : Nat}
    (hi : i < min (tabulate w h f).data.length (tabulate w h' f).data.length) :
    (tabulate w h' f).data[i]? = (tabulate w h f).data[i]? := by
  rw [tabulate_length, tabulate_length, Nat.lt_min] at hi
  rw [tabulate_getElem? f hi.1, tabulate_getElem? f hi.2]

/-- Two buffers of the same pixels and the same width are one buffer exactly when their heights agree. -/
theorem tabulate_eq_iff_height (w h h' : Nat) (f : Nat → Colour) : tabulate w h' f = tabulate w h f ↔ h' = h :=
  ⟨congrArg PixelBuffer.height, fun e => e ▸ rfl⟩

/-- Pixel `i` of a bitmap layer's run, whatever the height of the buffer (44_layer_compositor R213). -/
def bitmapPixel (m : Memory) (px : Vector Colour 256) (p : LayerProperties) (i : Nat) : Colour :=
  colourAt px (poff (linearIndex m p.tileBase (deriveLayer p).bitsPerPixel i) (deriveLayer p).paletteSelector)

theorem bitmapRender_eq_tabulate (m : Memory) (px : Vector Colour 256) (p : LayerProperties) :
    bitmapRender m px p = tabulate (deriveLayer p).bitmapWidthPixels Config.bitmapHeight (bitmapPixel m px p) := rfl

theorem bitmapWidthPixels_eq_or (p : LayerProperties) :
    (deriveLayer p).bitmapWidthPixels = 640 ∨ (deriveLayer p).bitmapWidthPixels = 320 := ite_eq_or_eq ..

/-- `RREGION` with the values of a valid record for operands answers the record's bitmap at the clamped height: each
value fits its port, and a bitmap's width is not clamped. -/
theorem exec_rregion_layerValues {p : LayerProperties} (hp : p.valid = true) (h : BitVec 13) (s : State) :
    exec (.rregion 0#8 (BitVec.ofNat 17 p.tileBase) (BitVec.ofNat 13 (deriveLayer p).bitmapWidthPixels) h
        (BitVec.ofNat 2 p.colorDepthCode) (BitVec.ofNat 4 (deriveLayer p).paletteSelector)) s =
      .next (s.setResult (.pixels (tabulate (deriveLayer p).bitmapWidthPixels (clamp h.toNat 1 Config.maxViewSide)
        (bitmapPixel s.vram (palx s.pal) p)))) := by
  obtain ⟨hdepth, -, -, -, ⟨hbase, -⟩, -⟩ := p.valid_iff.1 hp
  have hsel : (deriveLayer p).paletteSelector < 16 := Nat.mod_lt _ (by decide)
  have haddrPort : (BitVec.ofNat 17 p.tileBase).toNat = p.tileBase := Nat.mod_eq_of_lt (by omega)
  have hselPort : (BitVec.ofNat 4 (deriveLayer p).paletteSelector).toNat = (deriveLayer p).paletteSelector :=
    Nat.mod_eq_of_lt hsel
  have hdepthPort : bppOf (BitVec.ofNat 2 p.colorDepthCode) = (deriveLayer p).bitsPerPixel :=
    congrArg (1 <<< ·) (Nat.mod_eq_of_lt (by omega))
  have hwidth : clamp (BitVec.ofNat 13 (deriveLayer p).bitmapWidthPixels).toNat 1 Config.maxViewSide =
      (deriveLayer p).bitmapWidthPixels := by
    rcases bitmapWidthPixels_eq_or p with e | e <;> rw [e] <;> rfl
  rw [exec_rregion_eq, if_pos ((wf_rregion_iff ..).2 rfl), complete_eq, renderRegion, haddrPort, hselPort, hdepthPort,
    hwidth]
  rfl

/-- Settles O41: both buffers tabulate the layer's pixels at the layer's width, one at `BITMAP_HEIGHT`, the other at
the clamped height. -/
theorem regionPreviewShowsTheBitmapLayer : Obligations.RegionPreviewShowsTheBitmapLayer := by
  intro id h s l hl p hmode
  obtain rfl := eq_layerOf hl
  refine ⟨bitmapRender s.vram (palx s.pal) p, _, ?_, exec_rregion_layerValues (decodeLayer_valid _) h s, rfl,
    fun i hi => tabulate_getElem?_congr _ _ _ _ hi, ?_⟩
  · rw [exec_rlayer_eq, renderLayer_of_bitmap _ _ hmode]
  · rw [← viewSide_eq, bitmapRender_eq_tabulate]
    exact tabulate_eq_iff_height ..

end Sys2Proof.Machine
end

section
/-! Proofs, families 60_exceptions and 70_reset_and_hazards: a step completes or refuses by name (R280, R287), the
idle step (R290), and what the engine accepts after reset (R300). -/

namespace Sys2Proof.Machine

/-! ## The refuse cases by operation (60_exceptions R287) -/

/-- The name under which an operation is refused: the rows of R287 that name an operation. -/
def operandRefusal : Instr → Option Refusal
  | .rdr _ len => if 0x20000 < len.toNat then some .rangeTooLong else none
  | .lrgr _ off => if off = 7#3 then some .noSuchRegisterByte else none
  | .lrgw _ off _ => if off = 7#3 then some .noSuchRegisterByte else none
  | .rregion id _ _ _ _ _ => if id.toNat % 4 ≠ 0 then some .regionSourceUnknown else none
  | _ => none

/-- The ports of a command that spells an operation name the refusal of that operation. -/
theorem refuseCase_of_decode {c : Command} {i : Instr} (h : decode c = .ok i) : refuseCase c = operandRefusal i := by
  unfold decode at h
  split at h
  case h_41 => cases h
  all_goals
    rename_i hop
    cases h
    simp [refuseCase, operandRefusal, hop, reservedOpcode]

/-- The ports of a command that spells no operation name its reserved opcode. -/
theorem refuseCase_of_reserved {c : Command} (h : reservedOpcode c.op.toNat = true) :
    refuseCase c = some (.reservedOpcode c.op) := if_pos h

/-- The operands an operation is refused for are outside the range of its rule, and it is refused by that name. -/
theorem exec_of_operandRefusal {i : Instr} {r : Refusal} (h : operandRefusal i = some r) (s : State) :
    i.wf = false ∧ exec i s = .refused r := by
  cases i
  case rdr addr len =>
    obtain ⟨hlen, rfl⟩ := Option.ite_some_none_eq_some.1 h
    have hwf : (Instr.rdr addr len).wf = false := decide_eq_false (Nat.not_le.2 hlen)
    exact ⟨hwf, by simp [exec_rdr_eq, hwf]⟩
  case lrgr id off =>
    obtain ⟨rfl, rfl⟩ := Option.ite_some_none_eq_some.1 h
    exact ⟨rfl, exec_lrgr_eq ..⟩
  case lrgw id off val =>
    obtain ⟨rfl, rfl⟩ := Option.ite_some_none_eq_some.1 h
    exact ⟨rfl, exec_lrgw_eq ..⟩
  case rregion id addr w h' depth sel =>
    obtain ⟨hid, rfl⟩ := Option.ite_some_none_eq_some.1 h
    have hwf : (Instr.rregion id addr w h' depth sel).wf = false :=
      Bool.eq_false_iff.2 (mt (wf_rregion_iff ..).1 hid)
    exact ⟨hwf, by simp [exec_rregion_eq, hwf]⟩
  all_goals cases h

/-- An operation whose operands are no `refuse` case completes in every state: its rule admits its operands, or it is
`UNPK`, which completes for any count. -/
theorem exec_completes_of_operandRefusal {i : Instr} (h : operandRefusal i = none) (s : State) :
    ∃ t : State, exec i s = .next t := by
  cases i
  case unpk => exact exec_unpk_completes ..
  case rdr => exact exec_completes_of_wf (by simpa [operandRefusal, Instr.wf] using h) s
  case lrgr => exact exec_completes_of_wf (by simpa [operandRefusal, Instr.wf] using h) s
  case lrgw => exact exec_completes_of_wf (by simpa [operandRefusal, Instr.wf] using h) s
  case rregion => exact exec_completes_of_wf ((wf_rregion_iff ..).2 (by simpa [operandRefusal] using h)) s
  all_goals exact exec_completes_of_wf rfl s

/-! ## What the step answers to a command -/

/-- A command of a `refuse` case is not legal, and its step is refused by the name of the case (R287). -/
theorem step_of_refuseCase {s : State} {c : Command} {rest : List HostAction} {r : Refusal}
    (hs : s.schedule = .command c :: rest) (hr : refuseCase c = some r) :
    legalCommand c = false ∧ step s = .refused r := by
  cases hc : decode c with
  | ok i =>
    obtain ⟨hwf, hexec⟩ := exec_of_operandRefusal (refuseCase_of_decode hc ▸ hr) (s.setSchedule rest)
    exact ⟨by simp only [legalCommand, hc, hwf], (step_of_command hs hc).trans hexec⟩
  | error e =>
    have hop := reserved_of_decode_error hc
    obtain rfl : .reservedOpcode c.op = r := Option.some.inj ((refuseCase_of_reserved hop).symm.trans hr)
    exact ⟨by simp only [legalCommand, hc], step_of_reserved hs hop⟩

/-- The step of a command of no `refuse` case completes: the command spells an operation, and it completes. -/
theorem step_completes_of_refuseCase {s : State} {c : Command} {rest : List HostAction}
    (hs : s.schedule = .command c :: rest) (hr : refuseCase c = none) : ∃ t : State, step s = .next t := by
  cases hc : decode c with
  | ok i =>
    rw [step_of_command hs hc]
    exact exec_completes_of_operandRefusal (refuseCase_of_decode hc ▸ hr) _
  | error e => cases (refuseCase_of_reserved (reserved_of_decode_error hc)).symm.trans hr

/-- Settles O54, by cases on the schedule and, for a command, on its `refuse` case. -/
theorem stepCompletesOrRefusesByName : Obligations.StepCompletesOrRefusesByName := by
  intro s
  refine ⟨?_, fun c rest r hs hr => (step_of_refuseCase hs hr).2, step_of_nil⟩
  match hs : s.schedule with
  | [] => exact .inl ⟨_, step_of_nil hs⟩
  | .write w :: rest => exact .inl ⟨_, step_of_write hs⟩
  | .command c :: rest =>
    cases hr : refuseCase c with
    | none => exact .inl (step_completes_of_refuseCase hs hr)
    | some r =>
      obtain ⟨hlegal, hstep⟩ := step_of_refuseCase hs hr
      exact .inr ⟨c, rest, r, rfl, hlegal, hr, hstep⟩

/-! ## After reset (70_reset_and_hazards R300) -/

/-- Settles O59: reset is an idle state, and the one command on the schedule spells its operation, which completes in
every state. -/
theorem resetAcceptsEveryOperation : Obligations.ResetAcceptsEveryOperation := by
  refine ⟨rfl, rfl, step_of_nil rfl, fun i hi => ?_⟩
  rw [step_of_command rfl (decode_encode i)]
  exact exec_completes_of_wf hi _

end Sys2Proof.Machine
end
